-- ==== Sys2Proof/Word.lean ====
section
/-! DEFINITION. The word types of the block (spec/00_scope.md R9): port address and data, wall cell, pixel, direction
code. All register values are unsigned (R10). -/

namespace Sys2Proof

/-- The 8-bit data of the host port; also the width of SR, SEED and STATUS (R9, R35). -/
abbrev Byte := BitVec 8

/-- The 12-bit address of the host port (R35). -/
abbrev Address := BitVec 12

/-- A wall cell: visited in bit 0, top-open in bit 1, left-open in bit 2 (R22, R62). -/
abbrev WallCell := BitVec 3

/-- A pixel: 1 is filled, 0 is empty (R27, R63). -/
abbrev Pixel := BitVec 1

end Sys2Proof
end

