-- ==== Sys2Proof/Syntax.lean ====
section
/-! DEFINITION. The six commands of spec/opcode_table.json (spec/30_encoding.md R59), the four directions (R61), what can
happen at the block's boundary (spec/20_memory.md R35, spec/70_reset_and_hazards.md R115) and the host pseudo-instructions
(R64). -/

namespace Sys2Proof

/-- The commands of the block, one constructor per row of spec/opcode_table.json. No command has an operand field (R58). -/
inductive Instr
  /-- NOP, byte 0x00 (R98) -/
  | nop
  /-- GEN, byte 0x01 (R73) -/
  | gen
  /-- RAST, byte 0x02 (R88) -/
  | rast
  /-- GENRAST, byte 0x03 (R99) -/
  | genrast
  /-- LFSR_LOAD, byte 0x04 (R68) -/
  | lfsrLoad
  /-- LFSR_NEXT, byte 0x05 (R69) -/
  | lfsrNext
  deriving DecidableEq, Repr

/-- The compass directions of the walk (R61). -/
inductive Direction
  | up | right | down | left
  deriving DecidableEq, Repr

/-- One event at the block's boundary, the unit in which agents take turns (log entry 1). -/
inductive Event
  /-- `HostRead(a)` (R35) -/
  | read (a : Address)
  /-- `HostWrite(a, d)` (R35) -/
  | write (a : Address) (d : Byte)
  /-- the host's pseudo `WAITIDLE`: repeat `RD STATUS` until BUSY reads 0 (R64; log entry 13) -/
  | waitIdle
  /-- one engine step (R14, R53) -/
  | engine
  /-- the reset input is asserted (R115; log entry 8) -/
  | reset
  deriving DecidableEq, Repr

/-- The pseudo-instructions of host programs (R64) that stand for port writes. -/
inductive Pseudo
  | nop | gen | rast | genrast | lfsrLoad | lfsrNext
  | genSeed (s : Byte) | genrastSeed (s : Byte) | lfsrLoadSeed (s : Byte)
  | clrErr
  deriving DecidableEq, Repr

end Sys2Proof
end

