-- ==== Sys2Proof/WellFormed.lean ====
section
/-! DEFINITION. Well-formed commands. A command has no operand field (spec/30_encoding.md R58), so every term of `Instr` is
well formed; the checks the spec makes are on the command byte (R57, R59, R60). -/

namespace Sys2Proof

/-- `OP`, bits 3:0 of a command byte (R57). -/
def opField (d : Byte) : BitVec 4 := d.extractLsb' 0 4

/-- `RSV`, bits 7:4 of a command byte (R57). -/
def rsvField (d : Byte) : BitVec 4 := d.extractLsb' 4 4

/-- The command byte's reserved field is 0000 (R57). -/
def rsvOk (d : Byte) : Bool := rsvField d == 0

/-- The command byte's opcode is one of the six of R59. -/
def opOk (d : Byte) : Bool := decide ((opField d).toNat ≤ 5)

/-- A well-formed command byte: reserved field zero and a named opcode (R57, R60). -/
def wellFormedByte (d : Byte) : Bool := rsvOk d && opOk d

/-- Well-formedness of a command as syntax: there is no field to check (R58). -/
def Instr.wellFormed : Instr → Bool
  | .nop => true
  | .gen => true
  | .rast => true
  | .genrast => true
  | .lfsrLoad => true
  | .lfsrNext => true

end Sys2Proof
end

