-- ==== Sys2Proof/Decode.lean ====
section
/-! DEFINITION. The decoder of command bytes (spec/30_encoding.md R57, R59, R60), total on every byte and rejecting by name,
and the encoder, written from the same table. -/

namespace Sys2Proof

/-- Why a byte is no command (R60). -/
inductive DecodeError
  /-- RSV, bits 7:4, is not 0000: bytes 0x10..0xFF -/
  | reservedField
  /-- RSV is 0000 and OP names no command: bytes 0x06..0x0F -/
  | reservedOpcode
  deriving DecidableEq, Repr

/-- One row of spec/opcode_table.json: a byte matches when its bits under `mask` are those of `pattern`. -/
structure OpcodeRow where
  pattern : Byte
  mask : Byte
  command : Instr
  deriving DecidableEq, Repr

/-- The opcode map (R59): exact matches, mask 0xFF. -/
def opcodeTable : List OpcodeRow :=
  [ ⟨0x00, 0xFF, .nop⟩,
    ⟨0x01, 0xFF, .gen⟩,
    ⟨0x02, 0xFF, .rast⟩,
    ⟨0x03, 0xFF, .genrast⟩,
    ⟨0x04, 0xFF, .lfsrLoad⟩,
    ⟨0x05, 0xFF, .lfsrNext⟩ ]

/-- A byte matches a row (R59). -/
def OpcodeRow.accepts (r : OpcodeRow) (d : Byte) : Bool := d &&& r.mask == r.pattern

/-- Decoding of a command byte (R59): the one row that matches, or the reason it is reserved (R60). -/
def decodeCommand (d : Byte) : Except DecodeError Instr :=
  match opcodeTable.find? (fun r => r.accepts d) with
  | some r => .ok r.command
  | none => if rsvOk d then .error .reservedOpcode else .error .reservedField

/-- The command byte of a command (R59). -/
def encode : Instr → Byte
  | .nop => 0x00
  | .gen => 0x01
  | .rast => 0x02
  | .genrast => 0x03
  | .lfsrLoad => 0x04
  | .lfsrNext => 0x05

/-- The decoder on an instruction numbered as spec/opcode_table.json numbers it: one byte, no other length (R57; log
entry 17). -/
def decodeTableWord (nbits w : Nat) : Option Instr :=
  if nbits = 8 ∧ w < 256 then (decodeCommand (BitVec.ofNat 8 w)).toOption else none

end Sys2Proof
end

