-- ==== Sys2Proof/Config.lean ====
section
/-! DEFINITION. What the spec leaves open: the one open parameter RETRY_CAP (spec/00_scope.md R8) and the values it calls
`any` (R11, spec/93_implementation_defined.md I1, I2). Each is a constant without a body, so a claim about the model holds
whatever it is. -/

namespace Sys2Proof.Config

/-- How far RETRY_CAP lies above its least admitted value (R8: a natural number of at least 8). Free value, log entry 7.
Safe: the spec's default 64 is one of the values it may have. -/
opaque retryCapAboveLeast : Nat

/-- RETRY_CAP: any natural number of at least 8 (R8). -/
def retryCap : Nat := 8 + retryCapAboveLeast

/-- What a WALL cell holds after the reset numbered `epoch` until something writes it (spec/10_state.md R34, I1): any 3-bit
value, one per reset and address. Free value, log entry 5. -/
opaque unwrittenWall : (epoch address : Nat) → WallCell

/-- What a pixel holds after the reset numbered `epoch` until RAST writes it (R34, I1): any 1-bit value. Free value,
log entry 5. -/
opaque unwrittenPixel : (epoch address : Nat) → Pixel

/-- What the `n`-th unconstrained host read returns (spec/20_memory.md R46, I2): any 8-bit value, fresh on every read. Free
value, log entry 6. -/
opaque busyRead : (n : Nat) → Byte

end Sys2Proof.Config
end

