-- ==== Sys2Proof/Machine/State.lean ====
section
/-! DEFINITION. The state of the block (spec/10_state.md), the reasons a step can stop, and the state after reset (R33). -/

namespace Sys2Proof.Machine

/-- The engine's control state (R28). -/
inductive Fsm
  | idle | genScan | genWalk | rastRun
  deriving DecidableEq, Repr

/-- The WALL and PIX arrays, one byte a location, by host address (spec/20_memory.md R36). A location that is not listed has
not been written since the last reset (log entry 12). -/
abbrev Memory := List Host.Cell

/-- A listed location lies in the WALL or the PIX window and its byte has the width of a cell or of a pixel (R22, R27,
R36). -/
def cellFits (c : Host.Cell) : Bool :=
  (decide (0x100 ≤ c.1) && decide (c.1 ≤ 0x1A1) && decide (c.2.toNat < 8)) ||
  (decide (0x400 ≤ c.1) && decide (c.1 ≤ 0x6F7) && decide (c.2.toNat < 2))

/-- The canonical form of memory: addresses strictly rising, every entry a location of an array and of its width. No entry
can equal what an unlisted location holds, since that is no value of the data but a free value (log entry 12). -/
def Memory.wf (m : Memory) : Bool :=
  decide (m.Pairwise (fun p q => p.1 < q.1)) && m.all cellFits

/-- Everything the spec gives the block, with the model's own bookkeeping after it. -/
structure State where
  /-- shift register (R15) -/
  sr : Byte
  /-- previous bit (R16) -/
  pb : BitVec 1
  /-- code of the most recent draw (R17) -/
  dir : BitVec 2
  /-- the seed (R18) -/
  seed : Byte
  /-- BUSY and the error bits (R19) -/
  status : Byte
  /-- WALL (R22) and PIX (R27) -/
  mem : Memory
  /-- control state (R28) -/
  fsm : Fsm
  /-- a RAST follows the current GEN (R28) -/
  chain : Bool
  /-- walk cursor, column (R29) -/
  x : Int
  /-- walk cursor, row (R29) -/
  y : Int
  /-- scan position, column (R30) -/
  cx : Nat
  /-- scan position, row (R30) -/
  cy : Nat
  /-- consecutive blocked draws at the current cell (R31) -/
  retry : Nat
  /-- no candidate is left (spec/41_maze_carver.md R81 item 2; log entry 4) -/
  scanDone : Bool
  /-- column of the block RAST draws next (spec/42_layout_rasterizer.md R88; log entry 4) -/
  blockX : Nat
  /-- row of the block RAST draws next (R88; log entry 4) -/
  blockY : Nat
  /-- number of resets so far: index of the free contents of WALL and PIX (log entry 5) -/
  epoch : Nat
  /-- number of unconstrained reads so far: index of their free values (log entry 6) -/
  freeReads : Nat
  /-- what the host, the engine and the reset input do next (log entry 1) -/
  events : List Event
  /-- what `HostRead` has returned, newest first (log entry 11) -/
  answers : List Byte
  deriving DecidableEq, Repr

/-- Why a step stops. The block itself never stops (spec/60_exceptions.md R101); both reasons belong to states that no run
from reset reaches (log entry 9). -/
inductive Fault
  /-- Raised by the engine in GEN_WALK when the cursor is outside the 9 × 18 grid: the engine never reads or writes such a
  cell (spec/00_scope.md R13), so the spec gives no effect. Safe. -/
  | cursorOutsideGrid
  /-- Raised by the engine in RAST_RUN when the block column is above 18: there is no such block (R90). Safe. -/
  | rasterOutsideGrid
  deriving DecidableEq, Repr

/-- Why an instruction has no meaning. -/
inductive Refusal
  /-- Raised by `exec` for an instruction that has no meaning yet; no arm does. Safe. -/
  | notModelled (mnemonic : String)
  deriving DecidableEq, Repr

/-- The machine right after reset (R33): registers at their reset values, WALL and PIX unwritten (R34), nothing pending at
the port. X, Y, CX, CY and RETRY are unspecified and unobservable there: DESIGN CHOICE 0, log entry 3. -/
def State.reset : State where
  sr := 0x00
  pb := 0
  dir := 0
  seed := 0x00
  status := 0x00
  mem := []
  fsm := .idle
  chain := false
  x := 0
  y := 0
  cx := 0
  cy := 0
  retry := 0
  scanDone := false
  blockX := 0
  blockY := 0
  epoch := 0
  freeReads := 0
  events := []
  answers := []

end Sys2Proof.Machine
end

