-- ==== Sys2Proof/Machine/Flags.lean ====
section
/-! DEFINITION. The STATUS register (spec/10_state.md R19 to R21, spec/60_exceptions.md): BUSY and the three sticky error
bits, which are all the flags the block has. Raising an error is the block's only way of reporting one (R101). -/

namespace Sys2Proof.Machine

/-- The three error causes (spec/60_exceptions.md, table of section 2). -/
inductive ErrorFlag
  | illegal | busy | cap
  deriving DecidableEq, Repr

/-- The STATUS bit of an error (R19). -/
def ErrorFlag.bit : ErrorFlag → Nat
  | .illegal => 1
  | .busy => 2
  | .cap => 3

/-- The STATUS byte with that error bit alone. -/
def ErrorFlag.mask : ErrorFlag → Byte
  | .illegal => 0x02
  | .busy => 0x04
  | .cap => 0x08

/-- STATUS bit 0, BUSY (R20). -/
def isBusy (s : State) : Bool := s.status.getLsbD 0

/-- STATUS bit of error `e`. -/
def hasError (e : ErrorFlag) (s : State) : Bool := s.status.getLsbD e.bit

/-- BUSY <- 1. -/
def setBusy (s : State) : State := { s with status := s.status ||| 0x01 }

/-- BUSY <- 0. -/
def clearBusy (s : State) : State := { s with status := s.status &&& 0xFE }

/-- `raise FLAG` (R11): set one sticky bit and change nothing else (R101, R109). -/
def raise (e : ErrorFlag) (s : State) : State := { s with status := s.status ||| e.mask }

/-- What a read of STATUS returns (spec/20_memory.md R39): the register, bits 7:4 read as 0 (R19; log entry 16). -/
def statusValue (s : State) : Byte := s.status &&& 0x0F

/-- A host write to STATUS (R39): each 1 in `d[3:1]` clears that error bit; the other bits of `d` are ignored. -/
def clearErrors (d : Byte) (s : State) : State := { s with status := s.status &&& ~~~(d &&& 0x0E) }

end Sys2Proof.Machine
end

