-- ==== Sys2Proof/Machine/Operands.lean ====
section
/-! DEFINITION. What commands and accesses operate on: the geometry of the grids (spec/00_scope.md R5 to R7, R12), the address
map (spec/20_memory.md R36), the direction codes (spec/30_encoding.md R61) and the block patterns
(spec/42_layout_rasterizer.md R89). -/

namespace Sys2Proof.Machine

/-- Host address of wall cell (x, y) (R36). -/
def wallAddr (x y : Nat) : Nat := 0x100 + 18 * y + x

/-- Host address of pixel (r, c) (R36). -/
def pixAddr (r c : Nat) : Nat := 0x400 + 38 * r + c

/-- The locations of the address map (R36). -/
inductive Location
  | cmd | status | seed | sr | pb | dir
  | wall (x y : Nat)
  | pix (r c : Nat)
  | unmapped
  deriving DecidableEq, Repr

/-- Which location an address names (R36); the arrays are row-major. -/
def locate (a : Address) : Location :=
  let n := a.toNat
  if n = 0x000 then .cmd
  else if n = 0x001 then .status
  else if n = 0x002 then .seed
  else if n = 0x003 then .sr
  else if n = 0x004 then .pb
  else if n = 0x005 then .dir
  else if 0x100 ≤ n ∧ n ≤ 0x1A1 then .wall ((n - 0x100) % 18) ((n - 0x100) / 18)
  else if 0x400 ≤ n ∧ n ≤ 0x6F7 then .pix ((n - 0x400) / 38) ((n - 0x400) % 38)
  else .unmapped

/-- The position is inside the 9 × 18 grid (R5, R13). -/
def inGrid (x y : Int) : Bool := decide (0 ≤ x ∧ x ≤ 17 ∧ 0 ≤ y ∧ y ≤ 8)

/-- The position is inside the carvable region (R7; `InRegion` of spec/41_maze_carver.md R75). -/
def inRegion (x y : Int) : Bool := decide (0 ≤ x ∧ x ≤ 16 ∧ 0 ≤ y ∧ y ≤ 7)

/-- The direction a 2-bit code stands for (R61). -/
def directionOf (code : BitVec 2) : Direction :=
  match code.toNat with
  | 0 => .up
  | 1 => .right
  | 2 => .down
  | _ => .left

/-- The code of a direction (R61). -/
def codeOf : Direction → BitVec 2
  | .up => 0
  | .right => 1
  | .down => 2
  | .left => 3

/-- The cursor offset (dx, dy) of a direction (R61, R12). -/
def offsetOf : Direction → Int × Int
  | .up => (0, -1)
  | .right => (1, 0)
  | .down => (0, 1)
  | .left => (-1, 0)

/-- A 2×2 pixel pattern `[[tl, tr], [bl, br]]` (R63). -/
structure BlockPattern where
  tl : Pixel
  tr : Pixel
  bl : Pixel
  br : Pixel
  deriving DecidableEq, Repr

/-- `Pattern(i)` (R89, R94): P0 to P3, and P4, the empty block, for any other index. -/
def patternOf (i : Nat) : BlockPattern :=
  match i with
  | 0 => ⟨0, 0, 0, 1⟩
  | 1 => ⟨0, 1, 0, 1⟩
  | 2 => ⟨0, 0, 1, 1⟩
  | 3 => ⟨0, 1, 1, 1⟩
  | _ => ⟨0, 0, 0, 0⟩

end Sys2Proof.Machine
end

