-- ==== Sys2Proof/Machine/Ops.lean ====
section
/-! DEFINITION. The named operations over the arrays and registers that every command and the host port share: reading and
writing WALL and PIX, issuing a command against BUSY, answering a read, and reset. The block takes no exception
(spec/60_exceptions.md R101): `raise` of Flags.lean is its whole error report, and there is no return from one (R109). -/

namespace Sys2Proof.Machine

/-- The byte a memory lists at an address, if it lists one. -/
def memFind : Memory → Nat → Option Byte
  | [], _ => none
  | (k, v) :: rest, a => if k = a then some v else memFind rest a

/-- Store a byte, keeping the addresses strictly rising. -/
def memStore : Memory → Nat → Byte → Memory
  | [], a, b => [(a, b)]
  | (k, v) :: rest, a, b =>
    if a < k then (a, b) :: (k, v) :: rest
    else if a = k then (k, b) :: rest
    else (k, v) :: memStore rest a b

/-- What an unlisted location holds (spec/10_state.md R34): a free value of the location's width (log entry 5); outside the
arrays nothing is stored and the value is 0 (spec/20_memory.md R37). -/
def unlistedByte (epoch a : Nat) : Byte :=
  if 0x100 ≤ a ∧ a ≤ 0x1A1 then (Config.unwrittenWall epoch a).setWidth 8
  else if 0x400 ≤ a ∧ a ≤ 0x6F7 then (Config.unwrittenPixel epoch a).setWidth 8
  else 0

/-- The model's read of one byte of the arrays. -/
def readByte (s : State) (a : Nat) : Byte := (memFind s.mem a).getD (unlistedByte s.epoch a)

/-- `WALL[y][x]` (spec/00_scope.md R11): exactly 3 bits (spec/10_state.md R22). -/
def wallRead (s : State) (x y : Nat) : WallCell := (readByte s (wallAddr x y)).setWidth 3

/-- `WALL[y][x] <- v` (R11). -/
def wallWrite (x y : Nat) (v : WallCell) (s : State) : State :=
  { s with mem := memStore s.mem (wallAddr x y) (v.setWidth 8) }

/-- `PIX[r][c]` (R11). -/
def pixRead (s : State) (r c : Nat) : Pixel := (readByte s (pixAddr r c)).setWidth 1

/-- `PIX[r][c] <- b` (R11). -/
def pixWrite (r c : Nat) (b : Pixel) (s : State) : State :=
  { s with mem := memStore s.mem (pixAddr r c) (b.setWidth 8) }

/-- A host write that needs BUSY = 0 (spec/20_memory.md R46, spec/60_exceptions.md R104): while BUSY = 1 it is dropped and
raises ERR_BUSY; otherwise it has its effect. -/
def whenIdle (s : State) (effect : State → State) : Host.Outcome State Fault Refusal :=
  if isBusy s then .next (raise .busy s) else .next (effect s)

/-- What is pending at the boundary becomes `es` (log entry 1). -/
def setEvents (es : List Event) (s : State) : State := { s with events := es }

/-- `HostRead` returns `v` and changes nothing else (R49; log entry 11). -/
def answer (v : Byte) (s : State) : State := { s with answers := v :: s.answers }

/-- `HostRead` returns `any` 8-bit value, fresh on every read (R46; log entry 6). -/
def answerFree (s : State) : State :=
  { s with answers := Config.busyRead s.freeReads :: s.answers, freeReads := s.freeReads + 1 }

/-- The reset input (spec/70_reset_and_hazards.md R115): aborts any running command, puts every register at its value of R33
and leaves WALL and PIX unspecified anew (R34). What the host has pending or has been answered is the host's (log
entry 8). -/
def resetBlock (s : State) : State :=
  { State.reset with
    epoch := s.epoch + 1, freeReads := s.freeReads, events := s.events, answers := s.answers }

end Sys2Proof.Machine
end

