-- ==== Sys2Proof/Machine/Expander.lean ====
section
/-! DEFINITION. The tile expander (spec/42_layout_rasterizer.md): block index, block placement, the engine's steps of RAST,
and the command RAST. -/

namespace Sys2Proof.Machine

/-- The index of a wall cell's block: the cell without its visited bit (R92), forced at the bottom and right borders (R93). -/
def cellIndex (x y : Nat) (v : WallCell) : BitVec 2 :=
  v.extractLsb' 1 2 ||| (if y = 8 then 2 else 0) ||| (if x = 17 then 1 else 0)

/-- `BlockIndex(bx, by)` (R91, R92, R93). -/
def blockIndex (s : State) (bx b_y : Nat) : BitVec 2 :=
  if b_y = 0 then (if bx = 0 then 0 else 2)
  else if bx = 0 then 1
  else cellIndex (bx - 1) (b_y - 1) (wallRead s (bx - 1) (b_y - 1))

/-- `PutBlock(bx, by, p)` (R90). -/
def putBlock (bx b_y : Nat) (p : BlockPattern) (s : State) : State :=
  pixWrite (2 * b_y + 1) (2 * bx + 1) p.br
    (pixWrite (2 * b_y + 1) (2 * bx) p.bl
      (pixWrite (2 * b_y) (2 * bx + 1) p.tr
        (pixWrite (2 * b_y) (2 * bx) p.tl s)))

/-- The engine begins to draw at block (0, 0) (R88); BUSY is 1 already. -/
def startRaster (s : State) : State := { s with fsm := .rastRun, blockX := 0, blockY := 0 }

/-- The final step of RAST (R88), and of GENRAST (spec/43_command_control.md R99): CHAIN and BUSY fall (for a plain
RAST, CHAIN by log entry 14). -/
def finishRaster (s : State) : State := clearBusy { s with fsm := .idle, chain := false }

/-- The next block in the order of R88's loops. -/
def advanceBlock (s : State) : State :=
  { s with
    blockX := if s.blockX < 18 then s.blockX + 1 else 0
    blockY := if s.blockX < 18 then s.blockY else s.blockY + 1 }

/-- After one block of the loop (R88): the block put, the next one chosen. -/
def blockDrawn (s : State) : State :=
  advanceBlock (putBlock s.blockX s.blockY (patternOf (blockIndex s s.blockX s.blockY).toNat) s)

/-- One engine step of RAST (R88): one block, or the final step once all block rows are drawn. -/
def rasterStep (s : State) : Host.Outcome State Fault Refusal :=
  if 10 ≤ s.blockY then .next (finishRaster s)
  else if 19 ≤ s.blockX then .fault .rasterOutsideGrid
  else .next (blockDrawn s)

/-- RAST (R88): the issue; the engine does the rest. -/
def execRast (s : State) : Host.Outcome State Fault Refusal :=
  whenIdle s (fun s => startRaster (setBusy s))

end Sys2Proof.Machine
end

