-- ==== Sys2Proof/Machine/Generator.lean ====
section
/-! DEFINITION. The direction generator (spec/40_direction_generator.md): its step, its seeding, and the commands LFSR_LOAD
and LFSR_NEXT. -/

namespace Sys2Proof.Machine

/-- The bit a draw inserts, `r2 = ~(SR[7] ^ SR[4])` (R65 steps 1 and 2). -/
def insertedBit (sr : Byte) : BitVec 1 := ~~~(sr.extractLsb' 7 1 ^^^ sr.extractLsb' 4 1)

/-- SR after a draw: shifted left, the inserted bit in bit 0, the old bit 7 lost (R65 step 3). -/
def shiftedSr (sr : Byte) : Byte := (sr <<< 1) ||| (insertedBit sr).setWidth 8

/-- `NextDirection()` (R65). The code is formed from PB before the step; it is left in DIR, where the caller reads it. -/
def nextDirection (s : State) : State :=
  { s with
    sr := shiftedSr s.sr
    pb := insertedBit s.sr
    dir := (s.pb.setWidth 2 <<< 1) ||| (insertedBit s.sr).setWidth 2 }

/-- `LoadGenerator(v)` (R66): DIR is not changed. -/
def loadGenerator (v : Byte) (s : State) : State := { s with sr := v, pb := v.extractLsb' 0 1 }

/-- LFSR_LOAD (R68). -/
def execLfsrLoad (s : State) : Host.Outcome State Fault Refusal :=
  whenIdle s (fun s => loadGenerator s.seed s)

/-- LFSR_NEXT (R69). -/
def execLfsrNext (s : State) : Host.Outcome State Fault Refusal :=
  whenIdle s nextDirection

end Sys2Proof.Machine
end

