-- ==== Sys2Proof/Machine/Carver.lean ====
section
/-! DEFINITION. The random-walk engine (spec/41_maze_carver.md): the initial grid, the pole and blocked tests, carving, the
engine's steps of GEN in the granularity of R81, and the command GEN. -/

namespace Sys2Proof.Machine

/-- A cell at the start of GEN (R74): border cells visited, interior cells 0. -/
def initCell (x y : Nat) : WallCell := if y = 8 ∨ x = 17 then 1 else 0

/-- The cells (x, y) of the grid (R5), row by row. -/
def gridCells : List (Nat × Nat) := (List.range 9).flatMap fun y => (List.range 18).map fun x => (x, y)

/-- `InitWall()` (R74): every cell is written. -/
def initWall (s : State) : State := gridCells.foldr (fun c t => wallWrite c.1 c.2 (initCell c.1 c.2) t) s

/-- `Pole(x, y)` (R75): the wall is read inside the carvable region only. -/
def isPole (s : State) (x y : Int) : Bool := !inRegion x y || (wallRead s x.toNat y.toNat).getLsbD 0

/-- `Blocked(x, y, d)` (R78): the neighbour's cell is read only when it is in the grid. -/
def isBlocked (s : State) (x y : Nat) (d : Direction) : Bool :=
  match d with
  | .up => (wallRead s x y).getLsbD 1
  | .down => y == 8 || (wallRead s x (y + 1)).getLsbD 1
  | .left => (wallRead s x y).getLsbD 2
  | .right => x == 17 || (wallRead s (x + 1) y).getLsbD 2

/-- `WALL[y][x] <- WALL[y][x] | v`. -/
def wallOr (x y : Nat) (v : WallCell) (s : State) : State := wallWrite x y (wallRead s x y ||| v) s

/-- The edge bit that `Carve(x, y, d)` sets, on the cell that owns the edge (R79, spec/10_state.md R26). -/
def carveEdge (x y : Nat) (d : Direction) (s : State) : State :=
  match d with
  | .up => wallOr x y 2 s
  | .down => wallOr x (y + 1) 2 s
  | .left => wallOr x y 4 s
  | .right => wallOr (x + 1) y 4 s

/-- The cursor moves one cell in direction `d` (R79, R61). -/
def moveCursor (d : Direction) (s : State) : State :=
  { s with x := s.x + (offsetOf d).1, y := s.y + (offsetOf d).2 }

/-- The next candidate in the order of R76: rows ascending, then columns descending; after (0, 7) none is left. -/
def advanceScan (s : State) : State :=
  if s.cy < 7 then { s with fsm := .genScan, cy := s.cy + 1 }
  else if 0 < s.cx then { s with fsm := .genScan, cx := s.cx - 1, cy := 0 }
  else { s with fsm := .genScan, scanDone := true }

/-- A walk starts at the candidate (R77). -/
def startWalk (s : State) : State :=
  { s with fsm := .genWalk, x := (s.cx : Int), y := (s.cy : Int), retry := 0 }

/-- GEN is complete (R73): the engine goes idle and BUSY falls, unless CHAIN = 1, when RAST follows
(spec/43_command_control.md R99). -/
def finishGen (s : State) : State :=
  if s.chain then startRaster s else clearBusy { s with fsm := .idle }

/-- `GenAbort()` (R80): ERR_CAP is raised, CHAIN cleared, the engine goes idle. -/
def abortGen (s : State) : State :=
  raise .cap (clearBusy { s with fsm := .idle, chain := false })

/-- RETRY has reached RETRY_CAP (R80). RETRY_CAP is at least 8 (spec/00_scope.md R8), so smaller counts are never compared
with it. -/
def capReached (retry : Nat) : Bool := decide (8 ≤ retry) && decide (retry = Config.retryCap)

/-- The issue step of GEN (R81 item 1): BUSY, the generator loaded from SEED, the initial grid, the first candidate. -/
def startGen (s : State) : State :=
  { initWall (loadGenerator s.seed (setBusy s)) with cx := 16, cy := 0, scanDone := false, fsm := .genScan }

/-- One engine step in GEN_SCAN (R81 item 2). -/
def scanStep (s : State) : State :=
  if s.scanDone then finishGen s
  else if isPole s (s.cx : Int) (s.cy : Int) then advanceScan s
  else startWalk s

/-- A blocked draw (R77): RETRY counts it, and GEN aborts when the cap is reached (R80). -/
def retryDraw (s : State) : State :=
  if capReached (s.retry + 1) then abortGen { s with retry := s.retry + 1 } else { s with retry := s.retry + 1 }

/-- After an open draw (R77, R79): the edge carved, the cursor moved, RETRY 0. -/
def carved (d : Direction) (s : State) : State :=
  { moveCursor d (carveEdge s.x.toNat s.y.toNat d s) with retry := 0 }

/-- An open draw (R77): the walk ends on a pole and goes on otherwise. -/
def carveDraw (d : Direction) (s : State) : State :=
  if isPole (carved d s) (carved d s).x (carved d s).y then advanceScan (carved d s) else carved d s

/-- After the mark and the draw of one pass (R77): the cell visited, the code in DIR. -/
def drawn (s : State) : State := nextDirection (wallOr s.x.toNat s.y.toNat 1 s)

/-- The direction that pass draws. -/
def drawnDirection (s : State) : Direction := directionOf (drawn s).dir

/-- One pass of the walk's loop from a cursor inside the grid (R77): mark, draw, then retry or carve. -/
def walkPass (s : State) : State :=
  if isBlocked (drawn s) s.x.toNat s.y.toNat (drawnDirection s) then retryDraw (drawn s)
  else carveDraw (drawnDirection s) (drawn s)

/-- One engine step in GEN_WALK (R81 item 3). A cursor outside the grid is a state no run reaches (R13; log entry 9). -/
def walkStep (s : State) : Host.Outcome State Fault Refusal :=
  if inGrid s.x s.y then .next (walkPass s) else .fault .cursorOutsideGrid

/-- GEN (R73): the issue step, taken with the CMD write (log entry 2); the engine does the rest. -/
def execGen (s : State) : Host.Outcome State Fault Refusal :=
  whenIdle s startGen

end Sys2Proof.Machine
end

