-- ==== Sys2Proof/Machine/Control.lean ====
section
/-! DEFINITION. The control commands (spec/43_command_control.md): NOP and GENRAST. -/

namespace Sys2Proof.Machine

/-- NOP (R98): no effect. -/
def execNop (s : State) : Host.Outcome State Fault Refusal :=
  whenIdle s (fun s => s)

/-- GENRAST (R99): CHAIN <- 1, then GEN; its end starts RAST. -/
def execGenrast (s : State) : Host.Outcome State Fault Refusal :=
  whenIdle s (fun s => startGen { s with chain := true })

end Sys2Proof.Machine
end

