-- ==== Sys2Proof/Machine/Dispatch.lean ====
section
/-! DEFINITION. One arm per command of spec/opcode_table.json. -/

namespace Sys2Proof.Machine

/-- The effect of issuing a command by a write to CMD (spec/20_memory.md R38). -/
def exec (i : Instr) (s : State) : Host.Outcome State Fault Refusal :=
  match i with
  | .nop => Sys2Proof.Machine.execNop s
  | .gen => Sys2Proof.Machine.execGen s
  | .rast => Sys2Proof.Machine.execRast s
  | .genrast => Sys2Proof.Machine.execGenrast s
  | .lfsrLoad => Sys2Proof.Machine.execLfsrLoad s
  | .lfsrNext => Sys2Proof.Machine.execLfsrNext s

end Sys2Proof.Machine
end

