-- ==== Sys2Proof/Machine/HostPort.lean ====
section
/-! DEFINITION. The host port (spec/20_memory.md): reads, writes and the issue of a command byte; the engine's step; and what
each event at the boundary does. -/

namespace Sys2Proof.Machine

/-- What a read of a location returns while BUSY = 0 (R37 to R42, R44). -/
def readValue (s : State) : Location → Byte
  | .cmd => 0x00
  | .status => statusValue s
  | .seed => s.seed
  | .sr => s.sr
  | .pb => s.pb.setWidth 8
  | .dir => s.dir.setWidth 8
  | .wall x y => (wallRead s x y).setWidth 8
  | .pix r c => (pixRead s r c).setWidth 8
  | .unmapped => 0x00

/-- The locations whose reads give `any` value while BUSY = 1 (R46). -/
def hiddenWhileBusy : Location → Bool
  | .seed | .sr | .pb | .dir | .wall _ _ | .pix _ _ => true
  | .cmd | .status | .unmapped => false

/-- `HostRead(a)` (R35, R46). -/
def hostRead (a : Address) (s : State) : State :=
  if isBusy s && hiddenWhileBusy (locate a) then answerFree s else answer (readValue s (locate a)) s

/-- A write to CMD (R38): rejected before it is decoded while BUSY = 1 (R46, spec/60_exceptions.md R106); a reserved byte
raises ERR_ILLEGAL and nothing else (spec/43_command_control.md R100). -/
def writeCommand (d : Byte) (s : State) : Host.Outcome State Fault Refusal :=
  if isBusy s then .next (raise .busy s)
  else
    match decodeCommand d with
    | .ok i => exec i s
    | .error _ => .next (raise .illegal s)

/-- `HostWrite(a, d)` (R35 to R46). -/
def hostWrite (a : Address) (d : Byte) (s : State) : Host.Outcome State Fault Refusal :=
  match locate a with
  | .cmd => writeCommand d s
  | .status => .next (clearErrors d s)
  | .seed => whenIdle s (fun s => { s with seed := d })
  | .wall x y => whenIdle s (wallWrite x y (d.setWidth 3))
  | .sr | .pb | .dir | .pix _ _ | .unmapped => .next s

/-- One engine step (spec/00_scope.md R14, R53): nothing while BUSY = 0 (log entry 15). -/
def engineStep (s : State) : Host.Outcome State Fault Refusal :=
  if isBusy s then
    match s.fsm with
    | .idle => .next s
    | .genScan => .next (scanStep s)
    | .genWalk => walkStep s
    | .rastRun => rasterStep s
  else .next s

/-- The STATUS register's address (R36). -/
def statusAddress : Address := 0x001

/-- `WAITIDLE` (spec/30_encoding.md R64): one `RD STATUS`; while BUSY = 1 the engine then has a turn and the host polls again
(log entry 13). -/
def pollEvents (s : State) : State :=
  setEvents
    (if isBusy s then .read statusAddress :: .engine :: .waitIdle :: s.events
      else .read statusAddress :: s.events) s

/-- What an event does. -/
def handleEvent (e : Event) (s : State) : Host.Outcome State Fault Refusal :=
  match e with
  | .read a => .next (hostRead a s)
  | .write a d => hostWrite a d s
  | .waitIdle => .next (pollEvents s)
  | .engine => engineStep s
  | .reset => .next (resetBlock s)

end Sys2Proof.Machine
end

