-- ==== Sys2Proof/Machine/Step.lean ====
section
/-! DEFINITION. One step of the machine: the next event at the boundary, or, when none is pending, a turn of the engine
(log entry 1). -/

namespace Sys2Proof.Machine

/-- One step. With no event pending the engine takes its turn, which is the spec's weak fairness
(spec/70_reset_and_hazards.md R122); an idle block then stays as it is (spec/60_exceptions.md R114). -/
def step (s : State) : Host.Outcome State Fault Refusal :=
  match s.events with
  | [] => engineStep s
  | e :: rest => handleEvent e (setEvents rest s)

/-- The host's next event is a write of the command byte `w` to CMD: the block is given its commands from outside and
fetches none (spec/10_state.md R32; log entry 10). -/
def State.withFetchWord (s : State) (nbits w : Nat) : State :=
  setEvents (.write 0x000 (BitVec.ofNat 8 (w % 2 ^ nbits)) :: s.events) s

end Sys2Proof.Machine
end

