-- ==== Sys2Proof/Machine/HostSyntax.lean ====
section
/-! DEFINITION. The host syntax of spec/30_encoding.md R64: symbolic addresses and the expansions of the pseudo-instructions
into port writes. `WR a, d` is `Event.write a d`, `RD a` is `Event.read a`, `WAITIDLE` is `Event.waitIdle`. -/

namespace Sys2Proof.Machine

/-- `CMD` (R64). -/
def addrCmd : Address := 0x000
/-- `STATUS` (R64). -/
def addrStatus : Address := 0x001
/-- `SEED` (R64). -/
def addrSeed : Address := 0x002
/-- `SR` (R64). -/
def addrSr : Address := 0x003
/-- `PB` (R64). -/
def addrPb : Address := 0x004
/-- `DIR` (R64). -/
def addrDir : Address := 0x005
/-- `WALL(x,y)` (R64). -/
def addrWall (x y : Nat) : Address := BitVec.ofNat 12 (wallAddr x y)
/-- `PIX(r,c)` (R64). -/
def addrPix (r c : Nat) : Address := BitVec.ofNat 12 (pixAddr r c)

/-- The expansion of a pseudo-instruction (R64). -/
def expandPseudo : Pseudo → List Event
  | .nop => [.write addrCmd 0x00]
  | .gen => [.write addrCmd 0x01]
  | .rast => [.write addrCmd 0x02]
  | .genrast => [.write addrCmd 0x03]
  | .lfsrLoad => [.write addrCmd 0x04]
  | .lfsrNext => [.write addrCmd 0x05]
  | .genSeed v => [.write addrSeed v, .write addrCmd 0x01]
  | .genrastSeed v => [.write addrSeed v, .write addrCmd 0x03]
  | .lfsrLoadSeed v => [.write addrSeed v, .write addrCmd 0x04]
  | .clrErr => [.write addrStatus 0x0E]

end Sys2Proof.Machine
end

