-- ==== Sys2Proof/Safety.lean ====
section
/-! DEFINITION. What counts as a well-formed state and a safe run, in the terms the statements use: the invariant of every
state a run from reset reaches, the three invariants of a running GEN, and the picture RAST draws. -/

namespace Sys2Proof.Machine

/-- The machine takes `n` steps from `s` and then holds `t`. -/
def runsTo (n : Nat) (s t : State) : Prop := Host.Core.run Sys2Proof.core n s = .next t

/-- What holds in every state that a run from reset reaches. -/
structure StateInv (s : State) : Prop where
  /-- memory is in canonical form -/
  mem_wf : Memory.wf s.mem = true
  /-- STATUS bits 7:4 are 0 (spec/10_state.md R19) -/
  status_reserved : s.status &&& 0xF0 = 0
  /-- BUSY is 1 exactly while the engine is not idle (R20, R28) -/
  busy_iff : isBusy s = true ↔ s.fsm ≠ .idle
  /-- CHAIN is 0 while no command runs (R28) -/
  chain_idle : s.fsm = .idle → s.chain = false
  /-- PB is bit 0 of SR (spec/40_direction_generator.md R71) -/
  pb_eq : s.pb = s.sr.extractLsb' 0 1
  /-- the cursor's range (R29) -/
  cursor : -1 ≤ s.x ∧ s.x ≤ 17 ∧ -1 ≤ s.y ∧ s.y ≤ 8
  /-- the scan position's range (R30) -/
  candidate : s.cx ≤ 16 ∧ s.cy ≤ 7
  /-- RETRY's range (R31) -/
  retry_le : s.retry ≤ Config.retryCap
  /-- during a walk the cursor is in the carvable region (R29), RETRY is below the cap and a candidate is left -/
  walking : s.fsm = .genWalk → inRegion s.x s.y = true ∧ s.retry < Config.retryCap ∧ s.scanDone = false
  /-- during RAST the block is one of the 10 × 19, or all are drawn (spec/42_layout_rasterizer.md R88, R90) -/
  drawing : s.fsm = .rastRun → (s.blockX ≤ 18 ∧ s.blockY ≤ 9) ∨ (s.blockX = 0 ∧ s.blockY = 10)

/-- GEN, or the GEN phase of GENRAST, is running (R28). -/
def inGen (s : State) : Prop := s.fsm = .genScan ∨ s.fsm = .genWalk

/-- The visited bit of wall cell (x, y) (R22). -/
def visited (s : State) (x y : Nat) : Bool := (wallRead s x y).getLsbD 0

/-- The candidate (x, y) lies before the scan position in the order of spec/41_maze_carver.md R76. -/
def scannedBefore (s : State) (x y : Nat) : Prop :=
  s.scanDone = true ∨ s.cx < x ∨ (x = s.cx ∧ y < s.cy)

/-- What a running GEN has covered: the border cells are visited (R74), every candidate already scanned is visited (R76,
R77), and the border cells carry only the edge bits a walk can carve (spec/30_encoding.md R62). -/
structure CoverInv (s : State) : Prop where
  border : inGen s → ∀ x y, x ≤ 17 → y ≤ 8 → (y = 8 ∨ x = 17) → visited s x y = true
  scanned : inGen s → ∀ x y, x ≤ 16 → y ≤ 7 → scannedBefore s x y → visited s x y = true
  current : s.fsm = .genWalk → visited s s.cx s.cy = true ∨ (s.x = s.cx ∧ s.y = s.cy)
  bottom_row : inGen s → ∀ x, x ≤ 17 → (wallRead s x 8).getLsbD 2 = false
  right_column : inGen s → ∀ y, y ≤ 8 → (wallRead s 17 y).getLsbD 1 = false

/-- The cell that owns the edge on side `d` of (x, y). -/
def edgeOwner (x y : Nat) : Direction → Nat × Nat
  | .up => (x, y)
  | .down => (x, y + 1)
  | .left => (x, y)
  | .right => (x + 1, y)

/-- The bit of its owner that stands for an edge: top-open for a horizontal edge, left-open for a vertical one. -/
def edgeBit : Direction → Nat
  | .up => 1
  | .down => 1
  | .left => 2
  | .right => 2

/-- The mask of that bit. -/
def edgeMask : Direction → WallCell
  | .up => 2
  | .down => 2
  | .left => 4
  | .right => 4

/-- No edge of the cell (x, y) is carved: no direction is blocked there (R78). -/
def noEdge (s : State) (x y : Nat) : Prop := ∀ d, isBlocked s x y d = false

/-- Which edges a running GEN may have carved (R83): none of an unvisited cell's, but for the cell the walk stands on, where
at most one direction is blocked. -/
structure EdgeInv (s : State) : Prop where
  unvisited : inGen s → ∀ x y, x ≤ 16 → y ≤ 7 → visited s x y = false →
    ¬ (s.fsm = .genWalk ∧ s.x = x ∧ s.y = y) → noEdge s x y
  one_blocked : s.fsm = .genWalk → ∀ d d', isBlocked s s.x.toNat s.y.toNat d = true →
    isBlocked s s.x.toNat s.y.toNat d' = true → d = d'

/-- How a walk's blocked draws stay few (spec/41_maze_carver.md R85). PB is bit 0 of SR, so the code drawn `j` draws ago stands
in bits j+1:j of SR (spec/40_direction_generator.md R71). -/
structure RetryInv (s : State) : Prop where
  /-- the last RETRY codes were all the one in DIR, which is blocked at the cursor (R83), and they are at most 7 (R71) -/
  blocked_run : s.fsm = .genWalk → 0 < s.retry →
    s.retry ≤ 7 ∧ isBlocked s s.x.toNat s.y.toNat (directionOf s.dir) = true ∧
    ∀ j, j < s.retry → s.sr.extractLsb' j 2 = s.dir
  /-- at the generator's fixed point, where every draw is Left, Left is not blocked (R86) -/
  left_open : s.fsm = .genWalk → s.sr = 0xFF → isBlocked s s.x.toNat s.y.toNat .left = false

/-- Pixel (i, j) of a block pattern, row i and column j of the 2×2 block (spec/30_encoding.md R63). -/
def BlockPattern.pixel (p : BlockPattern) (i j : Nat) : Pixel :=
  if i = 0 then (if j = 0 then p.tl else p.tr) else (if j = 0 then p.bl else p.br)

/-- The pixel RAST draws at (r, c) from the wall cells of `s` (spec/42_layout_rasterizer.md R88, R90). -/
def rasterPixel (s : State) (r c : Nat) : Pixel :=
  (patternOf (blockIndex s (c / 2) (r / 2)).toNat).pixel (r % 2) (c % 2)

end Sys2Proof.Machine
end

