-- ==== Sys2Proof/Certificates/Slice0/Obligations.lean ====
section
/-! DEFINITION. The statements for the provers. `{ s with … }` names everything an operation changes: every other field, and
with `mem` unnamed every byte of WALL and PIX, is unchanged. A step takes the first entry of `events` (log entry 1); a turn of
the engine is a step with no event pending. -/

open Sys2Proof Sys2Proof.Machine

/-! ## Commands and their encoding -/

/-- spec/30_encoding.md R59: the opcode map, exact on all 8 bits. -/
def Obligations.DecodeMatchesTheOpcodeMap : Prop :=
  (decodeCommand 0b00000000 = .ok .nop ∧ decodeCommand 0b00000001 = .ok .gen ∧
    decodeCommand 0b00000010 = .ok .rast ∧ decodeCommand 0b00000011 = .ok .genrast ∧
    decodeCommand 0b00000100 = .ok .lfsrLoad ∧ decodeCommand 0b00000101 = .ok .lfsrNext) ∧
  ∀ d : Byte, 6 ≤ d.toNat → ∃ e, decodeCommand d = .error e

/-- Decoding an encoded command gives it back, and a byte that decodes is that command's (from R57, R59). -/
def Obligations.DecodeAndEncodeAgree : Prop :=
  (∀ i : Instr, i.wellFormed = true →
    decodeCommand (encode i) = .ok i ∧ decodeTableWord 8 (encode i).toNat = some i ∧
    wellFormedByte (encode i) = true) ∧
  (∀ (d : Byte) (i : Instr), decodeCommand d = .ok i → encode i = d)

/-- A step runs the decoded command (spec/20_memory.md R38): a write of `d` to CMD is rejected while BUSY = 1, and otherwise
is the effect of the command `d` decodes to, or ERR_ILLEGAL; a read of CMD returns 0x00. `withFetchWord` places such a
write. -/
def Obligations.StepRunsTheDecodedCommand : Prop :=
  (∀ (s : State) (rest : List Event) (d : Byte) (i : Instr),
    s.events = .write 0x000 d :: rest → decodeCommand d = .ok i → step s = exec i { s with events := rest }) ∧
  (∀ (s : State) (rest : List Event) (d : Byte) (e : DecodeError),
    s.events = .write 0x000 d :: rest → decodeCommand d = .error e →
    step s = .next { s with
      events := rest, status := s.status ||| (if isBusy s then 0x04 else 0x02) }) ∧
  (∀ (s : State) (rest : List Event), s.events = .read 0x000 :: rest →
    step s = .next { s with events := rest, answers := 0x00 :: s.answers }) ∧
  (∀ (s : State) (w : Nat) (i : Instr), decodeTableWord 8 w = some i → step (s.withFetchWord 8 w) = exec i s)

/-- spec/43_command_control.md R98. -/
def Obligations.NopHasNoEffect : Prop :=
  encode .nop = 0x00 ∧ ∀ s : State,
    (isBusy s = false → exec .nop s = .next s) ∧
    (isBusy s = true → exec .nop s = .next { s with status := s.status ||| 0x04 })

/-- spec/40_direction_generator.md R68, with R66: SR <- SEED, PB <- SEED[0], and nothing else. -/
def Obligations.LfsrLoadSeedsTheGenerator : Prop :=
  encode .lfsrLoad = 0x04 ∧ ∀ s : State,
    (isBusy s = false → exec .lfsrLoad s = .next { s with sr := s.seed, pb := s.seed.extractLsb' 0 1 }) ∧
    (isBusy s = true → exec .lfsrLoad s = .next { s with status := s.status ||| 0x04 })

/-- R69, with R65: the inserted bit r2 = ~(SR[7] ^ SR[4]) shifts into SR and becomes PB; the code PB_old ++ r2 goes to DIR. -/
def Obligations.LfsrNextDrawsOneCode : Prop :=
  encode .lfsrNext = 0x05 ∧ ∀ (s : State) (r2 : BitVec 1),
    r2 = ~~~(s.sr.extractLsb' 7 1 ^^^ s.sr.extractLsb' 4 1) →
    (isBusy s = false →
      exec .lfsrNext s = .next { s with sr := s.sr.extractLsb' 0 7 ++ r2, pb := r2, dir := s.pb ++ r2 }) ∧
    (isBusy s = true → exec .lfsrNext s = .next { s with status := s.status ||| 0x04 })

/-- The issue of GEN and of GENRAST (spec/41_maze_carver.md R73, R74, R81 item 1; spec/43_command_control.md R99): BUSY rises,
the generator is loaded from SEED, every wall cell takes its initial value, the scan starts at (16, 0); GENRAST also sets
CHAIN. Nothing else changes: no register, no byte outside the WALL window. That the issue step is taken with the write is log
entry 2. -/
def Obligations.GenAndGenrastIssue : Prop :=
  ∀ (s : State) (i : Instr) (c : Bool),
    (i = .gen ∧ c = s.chain) ∨ (i = .genrast ∧ c = true) → isBusy s = false →
    ∃ t, exec i s = .next t ∧
      t = { s with
        sr := s.seed, pb := s.seed.extractLsb' 0 1, status := s.status ||| 0x01, mem := t.mem,
        fsm := .genScan, chain := c, cx := 16, cy := 0, scanDone := false } ∧
      (∀ x y, x ≤ 17 → y ≤ 8 → wallRead t x y = if y = 8 ∨ x = 17 then 1 else 0) ∧
      (∀ a, a < 0x100 ∨ 0x1A1 < a → readByte t a = readByte s a)

/-- The issue of RAST (spec/42_layout_rasterizer.md R88): BUSY rises and the engine stands before block (0, 0). -/
def Obligations.RastIssue : Prop :=
  encode .rast = 0x02 ∧ ∀ s : State, isBusy s = false →
    exec .rast s = .next { s with status := s.status ||| 0x01, fsm := .rastRun, blockX := 0, blockY := 0 }

/-- Every CMD write while BUSY = 1 is rejected before it is decoded: ERR_BUSY and nothing else (R46, R106). -/
def Obligations.CommandsAreRejectedWhileBusy : Prop :=
  (∀ (i : Instr) (s : State), isBusy s = true → exec i s = .next { s with status := s.status ||| 0x04 }) ∧
  (∀ (s : State) (rest : List Event) (d : Byte), s.events = .write 0x000 d :: rest → isBusy s = true →
    step s = .next { s with events := rest, status := s.status ||| 0x04 })

/-- spec/43_command_control.md R100: the reserved bytes. -/
def Obligations.ReservedBytesRaiseErrIllegal : Prop :=
  ∀ (s : State) (rest : List Event) (d : Byte), s.events = .write 0x000 d :: rest → 0x06 ≤ d.toNat →
    (isBusy s = false → step s = .next { s with events := rest, status := s.status ||| 0x02 }) ∧
    (isBusy s = true → step s = .next { s with events := rest, status := s.status ||| 0x04 })

/-! ## STATUS -/

/-- R104: ERR_BUSY rises exactly when a write to CMD, SEED or a WALL location meets BUSY = 1, and that write has no other
effect. -/
def Obligations.ErrBusyRisesExactlyOnRejectedWrites : Prop :=
  (∀ s t : State, step s = .next t → hasError .busy s = false →
    (hasError .busy t = true ↔ isBusy s = true ∧ ∃ a d rest, s.events = .write a d :: rest ∧
      (a = 0x000 ∨ a = 0x002 ∨ (0x100 ≤ a.toNat ∧ a.toNat ≤ 0x1A1)))) ∧
  (∀ (s : State) (a : Address) (d : Byte) (rest : List Event), isBusy s = true → s.events = .write a d :: rest →
    (a = 0x000 ∨ a = 0x002 ∨ (0x100 ≤ a.toNat ∧ a.toNat ≤ 0x1A1)) →
    step s = .next { s with events := rest, status := s.status ||| 0x04 })

/-- R103: ERR_ILLEGAL rises exactly when a byte outside 0x00..0x05 is written to CMD with BUSY = 0. -/
def Obligations.ErrIllegalRisesExactlyOnReservedBytes : Prop :=
  ∀ s t : State, step s = .next t → hasError .illegal s = false →
    (hasError .illegal t = true ↔ isBusy s = false ∧ ∃ d rest, s.events = .write 0x000 d :: rest ∧ 0x06 ≤ d.toNat)

/-- From R105: ERR_CAP rises exactly when a turn of the engine counts a blocked draw of a walk and RETRY reaches RETRY_CAP. -/
def Obligations.ErrCapRisesExactlyAtTheCap : Prop :=
  ∀ s t : State, step s = .next t → hasError .cap s = false →
    (hasError .cap t = true ↔
      (s.events = [] ∨ ∃ rest, s.events = .engine :: rest) ∧ isBusy s = true ∧ s.fsm = .genWalk ∧
      isBlocked (drawn s) s.x.toNat s.y.toNat (drawnDirection s) = true ∧ s.retry + 1 = Config.retryCap)

/-- R107: an error bit, once set, stays until the host writes 1 to it at STATUS or until reset, and no error bit blocks a
command: with any error raised before, a command does the same and keeps it. -/
def Obligations.ErrorBitsAreSticky : Prop :=
  (∀ (e : ErrorFlag) (s t : State), step s = .next t → hasError e s = true → hasError e t = false →
    (∃ rest, s.events = .reset :: rest) ∨
    (∃ d rest, s.events = .write 0x001 d :: rest ∧ d.getLsbD e.bit = true)) ∧
  (∀ (e : ErrorFlag) (i : Instr) (s t : State), exec i s = .next t → exec i (raise e s) = .next (raise e t))

/-- R39: STATUS is read exactly, with bits 7:4 as 0, and each 1 written to bits 3:1 clears that bit, at any time. -/
def Obligations.StatusReadsAndClears : Prop :=
  ∀ (s : State) (rest : List Event),
    (s.events = .read 0x001 :: rest →
      step s = .next { s with events := rest, answers := (s.status &&& 0x0F) :: s.answers }) ∧
    (∀ d, s.events = .write 0x001 d :: rest → ∃ t, step s = .next t ∧
      t = { s with events := rest, status := t.status } ∧
      (∀ k, t.status.getLsbD k = (s.status.getLsbD k && !(d.getLsbD k && decide (1 ≤ k ∧ k ≤ 3)))))

/-- R20: BUSY rises exactly with the write that issues GEN, RAST or GENRAST, falls only when the engine finishes or at reset,
and FSM is not IDLE while it is 1. -/
def Obligations.BusyRisesAndFalls : Prop :=
  ∀ s t : State, StateInv s → step s = .next t →
    (isBusy s = false → (isBusy t = true ↔
      ∃ d rest, s.events = .write 0x000 d :: rest ∧ (d = 0x01 ∨ d = 0x02 ∨ d = 0x03))) ∧
    (isBusy s = true → isBusy t = false → t.fsm = .idle ∧
      (s.events = [] ∨ (∃ rest, s.events = .engine :: rest) ∨ (∃ rest, s.events = .reset :: rest))) ∧
    (isBusy t = true → t.fsm ≠ .idle)

/-! ## The host port -/

/-- R42 and R44: reads of WALL and PIX while BUSY = 0. -/
def Obligations.WallAndPixReads : Prop :=
  ∀ (s : State) (a : Address) (rest : List Event), isBusy s = false → s.events = .read a :: rest →
    (∀ x y, x ≤ 17 → y ≤ 8 → a.toNat = 0x100 + 18 * y + x →
      step s = .next { s with events := rest, answers := (wallRead s x y).setWidth 8 :: s.answers }) ∧
    (∀ r c, r ≤ 19 → c ≤ 37 → a.toNat = 0x400 + 38 * r + c →
      step s = .next { s with events := rest, answers := (pixRead s r c).setWidth 8 :: s.answers })

/-- R43: a write to WALL stores bits 2:0 and changes nothing else. -/
def Obligations.WallWriteStoresThreeBits : Prop :=
  ∀ (s : State) (a : Address) (d : Byte) (rest : List Event) (x y : Nat),
    isBusy s = false → s.events = .write a d :: rest → x ≤ 17 → y ≤ 8 → a.toNat = 0x100 + 18 * y + x →
    ∃ t, step s = .next t ∧ t = { s with events := rest, mem := t.mem } ∧
      wallRead t x y = d.extractLsb' 0 3 ∧ (∀ b, b ≠ a.toNat → readByte t b = readByte s b)

/-- R37: unmapped addresses, whatever BUSY is. -/
def Obligations.UnmappedAddresses : Prop :=
  ∀ (s : State) (a : Address) (rest : List Event),
    ((0x006 ≤ a.toNat ∧ a.toNat ≤ 0x0FF) ∨ (0x1A2 ≤ a.toNat ∧ a.toNat ≤ 0x3FF) ∨ 0x6F8 ≤ a.toNat) →
    (s.events = .read a :: rest → step s = .next { s with events := rest, answers := 0x00 :: s.answers }) ∧
    (∀ d, s.events = .write a d :: rest → step s = .next { s with events := rest })

/-- SEED at the port (R40, and R46 for BUSY = 1, whose `any` is the free value of log entry 6). -/
def Obligations.SeedAccess : Prop :=
  ∀ (s : State) (rest : List Event),
    (isBusy s = false →
      (s.events = .read 0x002 :: rest → step s = .next { s with events := rest, answers := s.seed :: s.answers }) ∧
      (∀ d, s.events = .write 0x002 d :: rest → step s = .next { s with events := rest, seed := d })) ∧
    (isBusy s = true →
      (s.events = .read 0x002 :: rest → step s = .next { s with
        events := rest, answers := Config.busyRead s.freeReads :: s.answers, freeReads := s.freeReads + 1 }) ∧
      (∀ d, s.events = .write 0x002 d :: rest →
        step s = .next { s with events := rest, status := s.status ||| 0x04 }))

/-- R41: SR, PB and DIR are read without a side effect while BUSY = 0, and writes to them do nothing. -/
def Obligations.GeneratorRegistersAtThePort : Prop :=
  ∀ (s : State) (rest : List Event),
    (isBusy s = false →
      (s.events = .read 0x003 :: rest → step s = .next { s with events := rest, answers := s.sr :: s.answers }) ∧
      (s.events = .read 0x004 :: rest →
        step s = .next { s with events := rest, answers := s.pb.setWidth 8 :: s.answers }) ∧
      (s.events = .read 0x005 :: rest →
        step s = .next { s with events := rest, answers := s.dir.setWidth 8 :: s.answers })) ∧
    (∀ a d, s.events = .write a d :: rest → (a = 0x003 ∨ a = 0x004 ∨ a = 0x005) →
      step s = .next { s with events := rest })

/-- R45: writes to PIX do nothing, whatever BUSY is. -/
def Obligations.PixWritesAreIgnored : Prop :=
  ∀ (s : State) (a : Address) (d : Byte) (rest : List Event), s.events = .write a d :: rest →
    0x400 ≤ a.toNat → a.toNat ≤ 0x6F7 → step s = .next { s with events := rest }

/-- Reads while BUSY = 1 (from R46): SEED, SR, PB, DIR, WALL and PIX return an unconstrained value, fresh on every read (the
free value of log entry 6), and nothing else changes. -/
def Obligations.HiddenReadsWhileBusy : Prop :=
  ∀ (s : State) (a : Address) (rest : List Event), isBusy s = true → s.events = .read a :: rest →
    ((0x002 ≤ a.toNat ∧ a.toNat ≤ 0x005) ∨ (0x100 ≤ a.toNat ∧ a.toNat ≤ 0x1A1) ∨
      (0x400 ≤ a.toNat ∧ a.toNat ≤ 0x6F7)) →
    step s = .next { s with
      events := rest, answers := Config.busyRead s.freeReads :: s.answers, freeReads := s.freeReads + 1 }

/-- From R46 and R53: while BUSY = 1 no host access disturbs the engine: a step on a read, a write or a poll changes nothing
but the error bits of STATUS, bits 3:1, and the record of events and reads. -/
def Obligations.HostCannotDisturbARunningCommand : Prop :=
  ∀ (s t : State) (e : Event) (rest : List Event), isBusy s = true → s.events = e :: rest →
    e ≠ .engine → e ≠ .reset → step s = .next t →
    t = { s with status := t.status, freeReads := t.freeReads, events := t.events, answers := t.answers } ∧
    t.status ||| 0x0E = s.status ||| 0x0E

/-- Accesses take effect one at a time in order (from R52, and R64 for WAITIDLE, log entry 13). -/
def Obligations.EventsAreTakenInOrder : Prop :=
  ∀ s t : State, step s = .next t →
    (s.events = [] → t.events = []) ∧
    (∀ e rest, s.events = e :: rest → e ≠ .waitIdle → t.events = rest) ∧
    (∀ rest, s.events = .waitIdle :: rest →
      t = { s with events := t.events } ∧
      t.events = if isBusy s then .read 0x001 :: .engine :: .waitIdle :: rest else .read 0x001 :: rest)

/-- An `engine` event is a turn of the engine (log entry 1; from spec/00_scope.md R14, R53): it does what a step with no event
pending does, and leaves the events after it. So every statement about a turn holds wherever the turn falls. -/
def Obligations.EngineEventsAreTurnsOfTheEngine : Prop :=
  ∀ (s t : State) (rest : List Event), s.events = .engine :: rest →
    (step s = .next t ↔ ∃ u, step { s with events := [] } = .next u ∧ t = { u with events := rest })

/-! ## Who changes what -/

/-- From R18 and R120: SEED changes only by a host write while BUSY = 0, or at reset. -/
def Obligations.SeedChangesOnlyByTheHost : Prop :=
  ∀ s t : State, step s = .next t → t.seed ≠ s.seed →
    (∃ d rest, s.events = .write 0x002 d :: rest ∧ isBusy s = false ∧ t.seed = d) ∨
    (∃ rest, s.events = .reset :: rest)

/-- From R15, R16 and R17: SR, PB and DIR change only by a seeding (LFSR_LOAD, or the issue of GEN or GENRAST, which keep
DIR), by a draw (LFSR_NEXT, or a walk's turn) and at reset. -/
def Obligations.GeneratorChangesOnlyBySeedingOrDrawing : Prop :=
  ∀ s t : State, step s = .next t →
    (t.sr = s.sr ∧ t.pb = s.pb ∧ t.dir = s.dir) ∨
    (t.sr = s.seed ∧ t.pb = s.seed.extractLsb' 0 1 ∧ t.dir = s.dir ∧ isBusy s = false ∧
      ∃ d rest, s.events = .write 0x000 d :: rest ∧ (d = 0x01 ∨ d = 0x03 ∨ d = 0x04)) ∨
    (t.pb = ~~~(s.sr.extractLsb' 7 1 ^^^ s.sr.extractLsb' 4 1) ∧ t.sr = s.sr.extractLsb' 0 7 ++ t.pb ∧
      t.dir = s.pb ++ t.pb ∧
      ((isBusy s = false ∧ ∃ rest, s.events = .write 0x000 0x05 :: rest) ∨
        (isBusy s = true ∧ s.fsm = .genWalk ∧ (s.events = [] ∨ ∃ rest, s.events = .engine :: rest)))) ∨
    (∃ rest, s.events = .reset :: rest)

/-- From R27 and R118: a pixel changes only by a turn of the engine in RAST, or at reset. -/
def Obligations.PixChangesOnlyByRast : Prop :=
  ∀ (s t : State) (r c : Nat), StateInv s → r ≤ 19 → c ≤ 37 → step s = .next t → pixRead t r c ≠ pixRead s r c →
    (isBusy s = true ∧ s.fsm = .rastRun ∧ (s.events = [] ∨ ∃ rest, s.events = .engine :: rest)) ∨
    (∃ rest, s.events = .reset :: rest)

/-! ## Reset -/

/-- spec/10_state.md R33: the registers after reset, the first one and any later one. -/
def Obligations.ResetPutsTheRegistersAtTheirValues : Prop :=
  ∀ t : State, (t = State.reset ∨ ∃ s rest, s.events = .reset :: rest ∧ step s = .next t) →
    t.sr = 0x00 ∧ t.pb = 0 ∧ t.dir = 0 ∧ t.seed = 0x00 ∧ t.status = 0x00 ∧ t.fsm = .idle ∧ t.chain = false

/-- From R34 and R115, in the form of log entry 5: after a reset every wall cell and pixel holds that reset's free value. -/
def Obligations.ResetLeavesTheArraysFree : Prop :=
  ∀ (s : State) (rest : List Event), s.events = .reset :: rest → ∃ t, step s = .next t ∧
    (∀ x y, x ≤ 17 → y ≤ 8 → wallRead t x y = Config.unwrittenWall (s.epoch + 1) (wallAddr x y)) ∧
    (∀ r c, r ≤ 19 → c ≤ 37 → pixRead t r c = Config.unwrittenPixel (s.epoch + 1) (pixAddr r c)) ∧
    t.events = rest ∧ t.answers = s.answers

/-! ## The direction generator -/

/-- R70: the map on SR is a bijection with the given inverse; its cycles have lengths 217, 31, 7 and 1; only 0xFF maps to
0xFF. -/
def Obligations.ShiftRegisterCycles : Prop :=
  (∀ v : Byte, (~~~(shiftedSr v).extractLsb' 0 1 ^^^ (shiftedSr v).extractLsb' 5 1) ++ (shiftedSr v).extractLsb' 1 7 = v) ∧
  (∀ w : Byte, ∃ v : Byte, shiftedSr v = w) ∧
  (∀ v : Byte, shiftedSr v = 0xFF ↔ v = 0xFF) ∧
  (∀ v : Byte, (∃ k, k < 217 ∧ v = Nat.iterate shiftedSr k 0x00) ∨ (∃ k, k < 31 ∧ v = Nat.iterate shiftedSr k 0x06) ∨
    (∃ k, k < 7 ∧ v = Nat.iterate shiftedSr k 0x1A) ∨ v = 0xFF) ∧
  (Nat.iterate shiftedSr 217 0x00 = 0x00 ∧ ∀ k, 0 < k → k < 217 → Nat.iterate shiftedSr k 0x00 ≠ 0x00) ∧
  (Nat.iterate shiftedSr 31 0x06 = 0x06 ∧ ∀ k, 0 < k → k < 31 → Nat.iterate shiftedSr k 0x06 ≠ 0x06) ∧
  (Nat.iterate shiftedSr 7 0x1A = 0x1A ∧ ∀ k, 0 < k → k < 7 → Nat.iterate shiftedSr k 0x1A ≠ 0x1A) ∧
  (∃ k, k < 217 ∧ Nat.iterate shiftedSr k 0x00 = 0x01)

/-- From R71: a code's high bit is the previous code's low bit; with SR ≠ 0xFF, among any nine consecutive draws one is not
Up and among any eight one is not Left, and one fewer of each where PB = SR[0]; with SR = 0xFF and PB = 1 every draw is
Left. -/
def Obligations.RunsOfOneCodeAreBounded : Prop :=
  (∀ s : State, (nextDirection (nextDirection s)).dir.extractLsb' 1 1 = (nextDirection s).dir.extractLsb' 0 1) ∧
  (∀ s : State, s.sr ≠ 0xFF →
    (∃ k, 1 ≤ k ∧ k ≤ 9 ∧ (Nat.iterate nextDirection k s).dir ≠ 0) ∧
    (∃ k, 1 ≤ k ∧ k ≤ 8 ∧ (Nat.iterate nextDirection k s).dir ≠ 3)) ∧
  (∀ s : State, s.sr ≠ 0xFF → s.pb = s.sr.extractLsb' 0 1 →
    (∃ k, 1 ≤ k ∧ k ≤ 8 ∧ (Nat.iterate nextDirection k s).dir ≠ 0) ∧
    (∃ k, 1 ≤ k ∧ k ≤ 7 ∧ (Nat.iterate nextDirection k s).dir ≠ 3)) ∧
  (∀ (s : State) (k : Nat), s.sr = 0xFF → s.pb = 1 → 1 ≤ k → (Nat.iterate nextDirection k s).dir = 3)

/-! ## The carver -/

/-- R75: the pole test. Outside the region the answer does not depend on the wall. -/
def Obligations.PoleTest : Prop :=
  ∀ (s : State) (x y : Int),
    (isPole s x y = true ↔ ¬ (0 ≤ x ∧ x ≤ 16 ∧ 0 ≤ y ∧ y ≤ 7) ∨ (wallRead s x.toNat y.toNat).getLsbD 0 = true) ∧
    (∀ t : State, ¬ (0 ≤ x ∧ x ≤ 16 ∧ 0 ≤ y ∧ y ≤ 7) → isPole t x y = isPole s x y)

/-- From R76 and R81 item 2: the 136 candidates in order; what advancing the scan leaves, with its frame; and what a turn of
the engine does with a candidate. That after the last candidate CX and CY keep (0, 7) and `scanDone` rises to say that none is left
is the model's choice, log entry 4: the rules say only that no candidate is left. -/
def Obligations.ScanOrder : Prop :=
  (∀ (s : State) (k : Nat), s.cx = 16 → s.cy = 0 → s.scanDone = false → k < 136 →
    (Nat.iterate advanceScan k s).cx = 16 - k / 8 ∧ (Nat.iterate advanceScan k s).cy = k % 8 ∧
    (Nat.iterate advanceScan k s).scanDone = false) ∧
  (∀ s : State, s.cx = 16 → s.cy = 0 → s.scanDone = false → (Nat.iterate advanceScan 136 s).scanDone = true) ∧
  (∀ s : State, advanceScan s = { s with
    fsm := .genScan
    cx := if s.cy < 7 then s.cx else s.cx - 1
    cy := if s.cy < 7 then s.cy + 1 else if s.cx = 0 then s.cy else 0
    scanDone := s.scanDone || (decide (7 ≤ s.cy) && decide (s.cx = 0)) }) ∧
  (∀ s : State, s.events = [] → isBusy s = true → s.fsm = .genScan → s.scanDone = false →
    (isPole s s.cx s.cy = true → step s = .next { s with
      cx := if s.cy < 7 then s.cx else s.cx - 1
      cy := if s.cy < 7 then s.cy + 1 else if s.cx = 0 then s.cy else 0
      scanDone := decide (7 ≤ s.cy) && decide (s.cx = 0) }) ∧
    (isPole s s.cx s.cy = false →
      step s = .next { s with fsm := .genWalk, x := (s.cx : Int), y := (s.cy : Int), retry := 0 }))

/-- A turn of a walk whose draw is blocked (from R77, R78, R65, R80): the cell is marked, the code drawn, the cursor and every
edge kept; RETRY counts it, and at RETRY_CAP GEN stops with ERR_CAP, BUSY and CHAIN falling (R80; RETRY and the cursor then
keep their values, log entry 20). -/
def Obligations.BlockedDraw : Prop :=
  ∀ (s : State) (x y : Nat) (r2 : BitVec 1), s.events = [] → isBusy s = true → s.fsm = .genWalk →
    s.x = x → s.y = y → x ≤ 16 → y ≤ 7 → r2 = ~~~(s.sr.extractLsb' 7 1 ^^^ s.sr.extractLsb' 4 1) →
    (wallRead s (edgeOwner x y (directionOf (s.pb ++ r2))).1 (edgeOwner x y (directionOf (s.pb ++ r2))).2).getLsbD
      (edgeBit (directionOf (s.pb ++ r2))) = true →
    ∃ t, step s = .next t ∧
      wallRead t x y = wallRead s x y ||| 1 ∧ (∀ b, b ≠ wallAddr x y → readByte t b = readByte s b) ∧
      (s.retry + 1 ≠ Config.retryCap →
        t = { s with
          sr := s.sr.extractLsb' 0 7 ++ r2, pb := r2, dir := s.pb ++ r2, mem := t.mem, retry := s.retry + 1 }) ∧
      (s.retry + 1 = Config.retryCap →
        t = { s with
          sr := s.sr.extractLsb' 0 7 ++ r2, pb := r2, dir := s.pb ++ r2, mem := t.mem, retry := s.retry + 1,
          fsm := .idle, chain := false, status := (s.status &&& 0xFE) ||| 0x08 })

/-- A turn of a walk whose draw is open (from R77, R78, R79, R65): the cell is marked, the edge's bit is set on the cell that
owns it, no other byte changes, the cursor moves one cell, RETRY is 0; on a pole, as the wall was before the turn, the walk
ends and the scan goes to the next candidate, otherwise the walk goes on. That after the last candidate CX and CY keep
(0, 7) and `scanDone` rises is the model's choice, log entry 4. -/
def Obligations.OpenDraw : Prop :=
  ∀ (s : State) (x y : Nat) (r2 : BitVec 1) (d : Direction), s.events = [] → isBusy s = true → s.fsm = .genWalk →
    s.x = x → s.y = y → x ≤ 16 → y ≤ 7 → r2 = ~~~(s.sr.extractLsb' 7 1 ^^^ s.sr.extractLsb' 4 1) →
    codeOf d = s.pb ++ r2 →
    (wallRead s (edgeOwner x y d).1 (edgeOwner x y d).2).getLsbD (edgeBit d) = false →
    ∃ t u, step s = .next t ∧
      u = { s with
        sr := s.sr.extractLsb' 0 7 ++ r2, pb := r2, dir := s.pb ++ r2, mem := t.mem, retry := 0,
        x := s.x + (offsetOf d).1, y := s.y + (offsetOf d).2 } ∧
      (isPole s u.x u.y = true → t = { u with
        fsm := .genScan
        cx := if s.cy < 7 then s.cx else s.cx - 1
        cy := if s.cy < 7 then s.cy + 1 else if s.cx = 0 then s.cy else 0
        scanDone := s.scanDone || (decide (7 ≤ s.cy) && decide (s.cx = 0)) }) ∧
      (isPole s u.x u.y = false → t = u) ∧
      (∀ x' y', x' ≤ 17 → y' ≤ 8 → wallRead t x' y' =
        wallRead s x' y' ||| (if x' = x ∧ y' = y then 1 else 0) |||
          (if x' = (edgeOwner x y d).1 ∧ y' = (edgeOwner x y d).2 then edgeMask d else 0)) ∧
      (∀ b, b ≠ wallAddr x y → b ≠ wallAddr (edgeOwner x y d).1 (edgeOwner x y d).2 → readByte t b = readByte s b)

/-- The end of the scan (from R73, R81 item 2, R99): BUSY falls, or RAST follows where CHAIN = 1. -/
def Obligations.ScanEndFinishesGen : Prop :=
  ∀ s : State, s.events = [] → isBusy s = true → s.fsm = .genScan → s.scanDone = true →
    (s.chain = false → step s = .next { s with fsm := .idle, status := s.status &&& 0xFE }) ∧
    (s.chain = true → step s = .next { s with fsm := .rastRun, blockX := 0, blockY := 0 })

/-! ## The expander -/

/-- R89, R91, R92, R93 and R94: the patterns, and the index of every block. -/
def Obligations.BlockIndexAndPatterns : Prop :=
  (patternOf 0 = ⟨0, 0, 0, 1⟩ ∧ patternOf 1 = ⟨0, 1, 0, 1⟩ ∧ patternOf 2 = ⟨0, 0, 1, 1⟩ ∧ patternOf 3 = ⟨0, 1, 1, 1⟩ ∧
    ∀ i, 4 ≤ i → patternOf i = ⟨0, 0, 0, 0⟩) ∧
  (∀ s : State, blockIndex s 0 0 = 0 ∧ (∀ bx, 1 ≤ bx → blockIndex s bx 0 = 2) ∧ (∀ b, 1 ≤ b → blockIndex s 0 b = 1)) ∧
  (∀ (s : State) (x y : Nat), x ≤ 17 → y ≤ 8 →
    (blockIndex s (x + 1) (y + 1)).getLsbD 0 = ((wallRead s x y).getLsbD 1 || decide (x = 17)) ∧
    (blockIndex s (x + 1) (y + 1)).getLsbD 1 = ((wallRead s x y).getLsbD 2 || decide (y = 8)))

/-- A turn of the engine in RAST (from R88, R90): one block's four pixels and no other byte, then the next block in the order
of the loops; with all rows drawn, BUSY falls (R88) and CHAIN falls (GENRAST's CHAIN <- 0, spec/43_command_control.md R99; that
the end of a plain RAST clears it too is log entry 14). The block counters are the model's own fields, log entry 4. -/
def Obligations.RasterTurn : Prop :=
  ∀ s : State, s.events = [] → isBusy s = true → s.fsm = .rastRun →
    (s.blockX ≤ 18 → s.blockY ≤ 9 → ∃ t, step s = .next t ∧
      t = { s with
        mem := t.mem, blockX := (if s.blockX < 18 then s.blockX + 1 else 0),
        blockY := (if s.blockX < 18 then s.blockY else s.blockY + 1) } ∧
      (∀ i j, i ≤ 1 → j ≤ 1 → pixRead t (2 * s.blockY + i) (2 * s.blockX + j) =
        (patternOf (blockIndex s s.blockX s.blockY).toNat).pixel i j) ∧
      (∀ b, (∀ i j, i ≤ 1 → j ≤ 1 → b ≠ pixAddr (2 * s.blockY + i) (2 * s.blockX + j)) →
        readByte t b = readByte s b)) ∧
    (s.blockY = 10 → step s = .next { s with fsm := .idle, chain := false, status := s.status &&& 0xFE })

/-- RAST as a whole (from R88 to R94): in 191 turns of the engine every pixel takes the value its block's pattern gives it,
BUSY falls, and no byte outside PIX and no register changes, from any idle state and any WALL content. The block counters end
at (0, 10), the model's own fields (log entry 4). CHAIN, 0 in every idle state that a run reaches, is 0 at the end (R99; for a
plain RAST log entry 14). -/
def Obligations.RastDrawsThePicture : Prop :=
  ∀ s : State, isBusy s = false → s.events = [] → ∃ r t, exec .rast s = .next r ∧ runsTo 191 r t ∧
    t = { s with
      status := (s.status ||| 0x01) &&& 0xFE, mem := t.mem, fsm := .idle, chain := false, blockX := 0, blockY := 10 } ∧
    (∀ i j, i ≤ 19 → j ≤ 37 → pixRead t i j = rasterPixel s i j) ∧
    (∀ b, b < 0x400 ∨ 0x6F7 < b → readByte t b = readByte s b)

/-- From R96: the frame, for every WALL content, after the 191 turns of R88 (190 blocks and the final step). -/
def Obligations.RastDrawsTheFrame : Prop :=
  ∀ s : State, isBusy s = false → s.events = [] → ∃ r t, exec .rast s = .next r ∧ runsTo 191 r t ∧ isBusy t = false ∧
    (∀ c, 1 ≤ c → c ≤ 37 → pixRead t 1 c = 1 ∧ pixRead t 19 c = 1) ∧
    (∀ i, 1 ≤ i → i ≤ 19 → pixRead t i 1 = 1 ∧ pixRead t i 37 = 1) ∧
    (∀ c, c ≤ 37 → pixRead t 0 c = 0) ∧ (∀ i, i ≤ 19 → pixRead t i 0 = 0)

/-- From R95: PIX after RAST, which takes the 191 turns of R88 (190 blocks and the final step), is a function of bits 2:1 of
the 162 wall cells alone. -/
def Obligations.PixIsAFunctionOfTheEdgeBits : Prop :=
  ∀ s u : State, isBusy s = false → s.events = [] → isBusy u = false → u.events = [] →
    (∀ x y, x ≤ 17 → y ≤ 8 → (wallRead u x y).extractLsb' 1 2 = (wallRead s x y).extractLsb' 1 2) →
    ∃ r t r' t', exec .rast s = .next r ∧ runsTo 191 r t ∧ isBusy t = false ∧
      exec .rast u = .next r' ∧ runsTo 191 r' t' ∧ isBusy t' = false ∧
      ∀ i j, i ≤ 19 → j ≤ 37 → pixRead t' i j = pixRead t i j

/-! ## Invariants and whole runs -/

/-- The invariants hold at reset, and ERR_CAP is 0 there (R33). The ranges of X, Y, CX, CY and RETRY hold by the model's choice
of their reset values, log entry 3. -/
def Obligations.ResetSatisfiesTheInvariant : Prop :=
  StateInv State.reset ∧ CoverInv State.reset ∧ EdgeInv State.reset ∧ RetryInv State.reset ∧
    hasError .cap State.reset = false

/-- Every step keeps the invariant: the canonical memory, the reserved STATUS bits (R19), BUSY and FSM (R20, R28), PB = SR[0]
(R71), and the ranges of the hidden state (R29, R30, R31). -/
def Obligations.EveryStepKeepsTheInvariant : Prop :=
  ∀ s t : State, StateInv s → step s = .next t → StateInv t

/-- The block never stops (from R101 and R13): from a state with the invariant every step has a next state. -/
def Obligations.NoStepStops : Prop := ∀ s : State, StateInv s → ∃ t, step s = .next t

/-- Every step keeps the coverage of a running GEN (from R74, R76, R77, R23). -/
def Obligations.EveryStepKeepsTheCoverage : Prop :=
  ∀ s t : State, StateInv s → CoverInv s → step s = .next t → CoverInv t

/-- Every step keeps the edge invariant of a running GEN, under which at most one direction is blocked at a draw (from
R83). -/
def Obligations.AtMostOneDirectionIsBlocked : Prop :=
  ∀ s t : State, StateInv s → EdgeInv s → step s = .next t → EdgeInv t

/-- Every step keeps ERR_CAP at 0, from every state with the invariants and for every RETRY_CAP of 8 or more (log entry 7): a
walk's last RETRY codes were all the one blocked code (R83), so they are at most 7 (R71), and at SR = 0xFF, where every draw is
Left, Left is not blocked (R86). From R85 and R105. -/
def Obligations.EveryStepKeepsTheRetryBound : Prop :=
  ∀ s t : State, StateInv s → EdgeInv s → RetryInv s → step s = .next t →
    StateInv t ∧ EdgeInv t ∧ RetryInv t ∧ (hasError .cap s = false → hasError .cap t = false)

/-- From R117: BUSY always falls after finitely many turns of the engine. -/
def Obligations.BusyAlwaysFalls : Prop :=
  ∀ s : State, StateInv s → s.events = [] → ∃ n t, runsTo n s t ∧ isBusy t = false

/-- From R73, R85, R87 and R62: GEN completes from every idle state, without an abort. Of the arrays only WALL changes; SEED,
STATUS, the engine's state, CHAIN and everything else but SR, PB, DIR and the hidden walk and scan state are as before. Every cell
is visited and the border cells have no bit a walk cannot carve. `scanDone` is the model's own field, log entry 4. -/
def Obligations.GenCoversTheGrid : Prop :=
  ∀ s : State, StateInv s → isBusy s = false → s.events = [] →
    ∃ g n t, exec .gen s = .next g ∧ runsTo n g t ∧ isBusy t = false ∧
      t = { s with
        sr := t.sr, pb := t.pb, dir := t.dir, mem := t.mem, x := t.x, y := t.y, cx := t.cx, cy := t.cy,
        retry := t.retry, scanDone := true } ∧
      (∀ b, b < 0x100 ∨ 0x1A1 < b → readByte t b = readByte s b) ∧
      (∀ x y, x ≤ 17 → y ≤ 8 → visited t x y = true) ∧
      (∀ x, x ≤ 17 → (wallRead t x 8).getLsbD 2 = false) ∧
      (∀ y, y ≤ 8 → (wallRead t 17 y).getLsbD 1 = false)

/-- From R82: what GEN leaves in WALL, SR and PB depends on SEED at issue alone: two runs from any two idle states with the
same SEED agree after every number of turns. -/
def Obligations.GenIsAFunctionOfTheSeed : Prop :=
  ∀ (s u : State) (n : Nat), StateInv s → StateInv u → isBusy s = false → isBusy u = false → s.events = [] → u.events = [] →
    u.seed = s.seed →
    ∃ g t g' t', exec .gen s = .next g ∧ runsTo n g t ∧ exec .gen u = .next g' ∧ runsTo n g' t' ∧
      t'.fsm = t.fsm ∧ isBusy t' = isBusy t ∧ t'.sr = t.sr ∧ t'.pb = t.pb ∧
      ∀ x y, x ≤ 17 → y ≤ 8 → wallRead t' x y = wallRead t x y

/-- From R99 and R85: from every idle state GENRAST ends in the very state that GEN, WAITIDLE, RAST, WAITIDLE ends in. That its
turns are the sum of theirs is about the model's own steps, the finishing turns among them, log entry 4; RAST's 191 are R88's. -/
def Obligations.GenrastEqualsGenThenRast : Prop :=
  ∀ s : State, StateInv s → isBusy s = false → s.events = [] →
    ∃ g n t r u g', exec .gen s = .next g ∧ runsTo n g t ∧ isBusy t = false ∧
      exec .rast t = .next r ∧ runsTo 191 r u ∧ isBusy u = false ∧
      exec .genrast s = .next g' ∧ runsTo (n + 191) g' u

/-- From R86: with seed 255 GEN leaves every interior cell 5, the border cells 1, SR = 0xFF, PB = 1 and DIR = 3. R86 gives 136
draws; the 273 turns are the model's, 136 draws, 136 candidate tests and a finishing turn that is a step of its own by the model's
choice, log entry 4. -/
def Obligations.Seed255CarvesLeftOnly : Prop :=
  ∀ s : State, StateInv s → isBusy s = false → s.events = [] → s.seed = 0xFF →
    ∃ g t, exec .gen s = .next g ∧ runsTo 273 g t ∧ isBusy t = false ∧ hasError .cap t = hasError .cap s ∧
      t.sr = 0xFF ∧ t.pb = 1 ∧ t.dir = 3 ∧
      ∀ x y, x ≤ 17 → y ≤ 8 → wallRead t x y = if y = 8 ∨ x = 17 then 1 else 5

/-- From R105 and R85, in runs from reset (EveryStepKeepsTheRetryBound says it of every step): whatever the host does
from reset, ERR_CAP never rises, for every RETRY_CAP of 8 or more. -/
def Obligations.ErrCapNeverRises : Prop :=
  ∀ (n : Nat) (es : List Event) (t : State), runsTo n { State.reset with events := es } t → hasError .cap t = false
end

