-- ==== Sys2Proof/Laws/State.lean ====
section
/-! SUPPORT. What each record update of the machine does to each field of State, one lemma per field per update, each true by
unfolding. -/

namespace Sys2Proof.Machine

/-! `setBusy` -/

@[simp] theorem setBusy_sr (s : State) : (setBusy s).sr = s.sr := rfl
@[simp] theorem setBusy_pb (s : State) : (setBusy s).pb = s.pb := rfl
@[simp] theorem setBusy_dir (s : State) : (setBusy s).dir = s.dir := rfl
@[simp] theorem setBusy_seed (s : State) : (setBusy s).seed = s.seed := rfl
@[simp] theorem setBusy_status (s : State) : (setBusy s).status = s.status ||| 0x01 := rfl
@[simp] theorem setBusy_mem (s : State) : (setBusy s).mem = s.mem := rfl
@[simp] theorem setBusy_fsm (s : State) : (setBusy s).fsm = s.fsm := rfl
@[simp] theorem setBusy_chain (s : State) : (setBusy s).chain = s.chain := rfl
@[simp] theorem setBusy_x (s : State) : (setBusy s).x = s.x := rfl
@[simp] theorem setBusy_y (s : State) : (setBusy s).y = s.y := rfl
@[simp] theorem setBusy_cx (s : State) : (setBusy s).cx = s.cx := rfl
@[simp] theorem setBusy_cy (s : State) : (setBusy s).cy = s.cy := rfl
@[simp] theorem setBusy_retry (s : State) : (setBusy s).retry = s.retry := rfl
@[simp] theorem setBusy_scanDone (s : State) : (setBusy s).scanDone = s.scanDone := rfl
@[simp] theorem setBusy_blockX (s : State) : (setBusy s).blockX = s.blockX := rfl
@[simp] theorem setBusy_blockY (s : State) : (setBusy s).blockY = s.blockY := rfl
@[simp] theorem setBusy_epoch (s : State) : (setBusy s).epoch = s.epoch := rfl
@[simp] theorem setBusy_freeReads (s : State) : (setBusy s).freeReads = s.freeReads := rfl
@[simp] theorem setBusy_events (s : State) : (setBusy s).events = s.events := rfl
@[simp] theorem setBusy_answers (s : State) : (setBusy s).answers = s.answers := rfl

/-! `clearBusy` -/

@[simp] theorem clearBusy_sr (s : State) : (clearBusy s).sr = s.sr := rfl
@[simp] theorem clearBusy_pb (s : State) : (clearBusy s).pb = s.pb := rfl
@[simp] theorem clearBusy_dir (s : State) : (clearBusy s).dir = s.dir := rfl
@[simp] theorem clearBusy_seed (s : State) : (clearBusy s).seed = s.seed := rfl
@[simp] theorem clearBusy_status (s : State) : (clearBusy s).status = s.status &&& 0xFE := rfl
@[simp] theorem clearBusy_mem (s : State) : (clearBusy s).mem = s.mem := rfl
@[simp] theorem clearBusy_fsm (s : State) : (clearBusy s).fsm = s.fsm := rfl
@[simp] theorem clearBusy_chain (s : State) : (clearBusy s).chain = s.chain := rfl
@[simp] theorem clearBusy_x (s : State) : (clearBusy s).x = s.x := rfl
@[simp] theorem clearBusy_y (s : State) : (clearBusy s).y = s.y := rfl
@[simp] theorem clearBusy_cx (s : State) : (clearBusy s).cx = s.cx := rfl
@[simp] theorem clearBusy_cy (s : State) : (clearBusy s).cy = s.cy := rfl
@[simp] theorem clearBusy_retry (s : State) : (clearBusy s).retry = s.retry := rfl
@[simp] theorem clearBusy_scanDone (s : State) : (clearBusy s).scanDone = s.scanDone := rfl
@[simp] theorem clearBusy_blockX (s : State) : (clearBusy s).blockX = s.blockX := rfl
@[simp] theorem clearBusy_blockY (s : State) : (clearBusy s).blockY = s.blockY := rfl
@[simp] theorem clearBusy_epoch (s : State) : (clearBusy s).epoch = s.epoch := rfl
@[simp] theorem clearBusy_freeReads (s : State) : (clearBusy s).freeReads = s.freeReads := rfl
@[simp] theorem clearBusy_events (s : State) : (clearBusy s).events = s.events := rfl
@[simp] theorem clearBusy_answers (s : State) : (clearBusy s).answers = s.answers := rfl

/-! `raise` -/

@[simp] theorem raise_sr (e : ErrorFlag) (s : State) : (raise e s).sr = s.sr := rfl
@[simp] theorem raise_pb (e : ErrorFlag) (s : State) : (raise e s).pb = s.pb := rfl
@[simp] theorem raise_dir (e : ErrorFlag) (s : State) : (raise e s).dir = s.dir := rfl
@[simp] theorem raise_seed (e : ErrorFlag) (s : State) : (raise e s).seed = s.seed := rfl
@[simp] theorem raise_status (e : ErrorFlag) (s : State) : (raise e s).status = s.status ||| e.mask := rfl
@[simp] theorem raise_mem (e : ErrorFlag) (s : State) : (raise e s).mem = s.mem := rfl
@[simp] theorem raise_fsm (e : ErrorFlag) (s : State) : (raise e s).fsm = s.fsm := rfl
@[simp] theorem raise_chain (e : ErrorFlag) (s : State) : (raise e s).chain = s.chain := rfl
@[simp] theorem raise_x (e : ErrorFlag) (s : State) : (raise e s).x = s.x := rfl
@[simp] theorem raise_y (e : ErrorFlag) (s : State) : (raise e s).y = s.y := rfl
@[simp] theorem raise_cx (e : ErrorFlag) (s : State) : (raise e s).cx = s.cx := rfl
@[simp] theorem raise_cy (e : ErrorFlag) (s : State) : (raise e s).cy = s.cy := rfl
@[simp] theorem raise_retry (e : ErrorFlag) (s : State) : (raise e s).retry = s.retry := rfl
@[simp] theorem raise_scanDone (e : ErrorFlag) (s : State) : (raise e s).scanDone = s.scanDone := rfl
@[simp] theorem raise_blockX (e : ErrorFlag) (s : State) : (raise e s).blockX = s.blockX := rfl
@[simp] theorem raise_blockY (e : ErrorFlag) (s : State) : (raise e s).blockY = s.blockY := rfl
@[simp] theorem raise_epoch (e : ErrorFlag) (s : State) : (raise e s).epoch = s.epoch := rfl
@[simp] theorem raise_freeReads (e : ErrorFlag) (s : State) : (raise e s).freeReads = s.freeReads := rfl
@[simp] theorem raise_events (e : ErrorFlag) (s : State) : (raise e s).events = s.events := rfl
@[simp] theorem raise_answers (e : ErrorFlag) (s : State) : (raise e s).answers = s.answers := rfl

/-! `clearErrors` -/

@[simp] theorem clearErrors_sr (d : Byte) (s : State) : (clearErrors d s).sr = s.sr := rfl
@[simp] theorem clearErrors_pb (d : Byte) (s : State) : (clearErrors d s).pb = s.pb := rfl
@[simp] theorem clearErrors_dir (d : Byte) (s : State) : (clearErrors d s).dir = s.dir := rfl
@[simp] theorem clearErrors_seed (d : Byte) (s : State) : (clearErrors d s).seed = s.seed := rfl
@[simp] theorem clearErrors_status (d : Byte) (s : State) : (clearErrors d s).status = s.status &&& ~~~(d &&& 0x0E) := rfl
@[simp] theorem clearErrors_mem (d : Byte) (s : State) : (clearErrors d s).mem = s.mem := rfl
@[simp] theorem clearErrors_fsm (d : Byte) (s : State) : (clearErrors d s).fsm = s.fsm := rfl
@[simp] theorem clearErrors_chain (d : Byte) (s : State) : (clearErrors d s).chain = s.chain := rfl
@[simp] theorem clearErrors_x (d : Byte) (s : State) : (clearErrors d s).x = s.x := rfl
@[simp] theorem clearErrors_y (d : Byte) (s : State) : (clearErrors d s).y = s.y := rfl
@[simp] theorem clearErrors_cx (d : Byte) (s : State) : (clearErrors d s).cx = s.cx := rfl
@[simp] theorem clearErrors_cy (d : Byte) (s : State) : (clearErrors d s).cy = s.cy := rfl
@[simp] theorem clearErrors_retry (d : Byte) (s : State) : (clearErrors d s).retry = s.retry := rfl
@[simp] theorem clearErrors_scanDone (d : Byte) (s : State) : (clearErrors d s).scanDone = s.scanDone := rfl
@[simp] theorem clearErrors_blockX (d : Byte) (s : State) : (clearErrors d s).blockX = s.blockX := rfl
@[simp] theorem clearErrors_blockY (d : Byte) (s : State) : (clearErrors d s).blockY = s.blockY := rfl
@[simp] theorem clearErrors_epoch (d : Byte) (s : State) : (clearErrors d s).epoch = s.epoch := rfl
@[simp] theorem clearErrors_freeReads (d : Byte) (s : State) : (clearErrors d s).freeReads = s.freeReads := rfl
@[simp] theorem clearErrors_events (d : Byte) (s : State) : (clearErrors d s).events = s.events := rfl
@[simp] theorem clearErrors_answers (d : Byte) (s : State) : (clearErrors d s).answers = s.answers := rfl

/-! `wallWrite` -/

@[simp] theorem wallWrite_sr (i j : Nat) (v : WallCell) (s : State) : (wallWrite i j v s).sr = s.sr := rfl
@[simp] theorem wallWrite_pb (i j : Nat) (v : WallCell) (s : State) : (wallWrite i j v s).pb = s.pb := rfl
@[simp] theorem wallWrite_dir (i j : Nat) (v : WallCell) (s : State) : (wallWrite i j v s).dir = s.dir := rfl
@[simp] theorem wallWrite_seed (i j : Nat) (v : WallCell) (s : State) : (wallWrite i j v s).seed = s.seed := rfl
@[simp] theorem wallWrite_status (i j : Nat) (v : WallCell) (s : State) : (wallWrite i j v s).status = s.status := rfl
@[simp] theorem wallWrite_mem (i j : Nat) (v : WallCell) (s : State) : (wallWrite i j v s).mem = memStore s.mem (wallAddr i j) (v.setWidth 8) := rfl
@[simp] theorem wallWrite_fsm (i j : Nat) (v : WallCell) (s : State) : (wallWrite i j v s).fsm = s.fsm := rfl
@[simp] theorem wallWrite_chain (i j : Nat) (v : WallCell) (s : State) : (wallWrite i j v s).chain = s.chain := rfl
@[simp] theorem wallWrite_x (i j : Nat) (v : WallCell) (s : State) : (wallWrite i j v s).x = s.x := rfl
@[simp] theorem wallWrite_y (i j : Nat) (v : WallCell) (s : State) : (wallWrite i j v s).y = s.y := rfl
@[simp] theorem wallWrite_cx (i j : Nat) (v : WallCell) (s : State) : (wallWrite i j v s).cx = s.cx := rfl
@[simp] theorem wallWrite_cy (i j : Nat) (v : WallCell) (s : State) : (wallWrite i j v s).cy = s.cy := rfl
@[simp] theorem wallWrite_retry (i j : Nat) (v : WallCell) (s : State) : (wallWrite i j v s).retry = s.retry := rfl
@[simp] theorem wallWrite_scanDone (i j : Nat) (v : WallCell) (s : State) : (wallWrite i j v s).scanDone = s.scanDone := rfl
@[simp] theorem wallWrite_blockX (i j : Nat) (v : WallCell) (s : State) : (wallWrite i j v s).blockX = s.blockX := rfl
@[simp] theorem wallWrite_blockY (i j : Nat) (v : WallCell) (s : State) : (wallWrite i j v s).blockY = s.blockY := rfl
@[simp] theorem wallWrite_epoch (i j : Nat) (v : WallCell) (s : State) : (wallWrite i j v s).epoch = s.epoch := rfl
@[simp] theorem wallWrite_freeReads (i j : Nat) (v : WallCell) (s : State) : (wallWrite i j v s).freeReads = s.freeReads := rfl
@[simp] theorem wallWrite_events (i j : Nat) (v : WallCell) (s : State) : (wallWrite i j v s).events = s.events := rfl
@[simp] theorem wallWrite_answers (i j : Nat) (v : WallCell) (s : State) : (wallWrite i j v s).answers = s.answers := rfl

/-! `pixWrite` -/

@[simp] theorem pixWrite_sr (r c : Nat) (b : Pixel) (s : State) : (pixWrite r c b s).sr = s.sr := rfl
@[simp] theorem pixWrite_pb (r c : Nat) (b : Pixel) (s : State) : (pixWrite r c b s).pb = s.pb := rfl
@[simp] theorem pixWrite_dir (r c : Nat) (b : Pixel) (s : State) : (pixWrite r c b s).dir = s.dir := rfl
@[simp] theorem pixWrite_seed (r c : Nat) (b : Pixel) (s : State) : (pixWrite r c b s).seed = s.seed := rfl
@[simp] theorem pixWrite_status (r c : Nat) (b : Pixel) (s : State) : (pixWrite r c b s).status = s.status := rfl
@[simp] theorem pixWrite_mem (r c : Nat) (b : Pixel) (s : State) : (pixWrite r c b s).mem = memStore s.mem (pixAddr r c) (b.setWidth 8) := rfl
@[simp] theorem pixWrite_fsm (r c : Nat) (b : Pixel) (s : State) : (pixWrite r c b s).fsm = s.fsm := rfl
@[simp] theorem pixWrite_chain (r c : Nat) (b : Pixel) (s : State) : (pixWrite r c b s).chain = s.chain := rfl
@[simp] theorem pixWrite_x (r c : Nat) (b : Pixel) (s : State) : (pixWrite r c b s).x = s.x := rfl
@[simp] theorem pixWrite_y (r c : Nat) (b : Pixel) (s : State) : (pixWrite r c b s).y = s.y := rfl
@[simp] theorem pixWrite_cx (r c : Nat) (b : Pixel) (s : State) : (pixWrite r c b s).cx = s.cx := rfl
@[simp] theorem pixWrite_cy (r c : Nat) (b : Pixel) (s : State) : (pixWrite r c b s).cy = s.cy := rfl
@[simp] theorem pixWrite_retry (r c : Nat) (b : Pixel) (s : State) : (pixWrite r c b s).retry = s.retry := rfl
@[simp] theorem pixWrite_scanDone (r c : Nat) (b : Pixel) (s : State) : (pixWrite r c b s).scanDone = s.scanDone := rfl
@[simp] theorem pixWrite_blockX (r c : Nat) (b : Pixel) (s : State) : (pixWrite r c b s).blockX = s.blockX := rfl
@[simp] theorem pixWrite_blockY (r c : Nat) (b : Pixel) (s : State) : (pixWrite r c b s).blockY = s.blockY := rfl
@[simp] theorem pixWrite_epoch (r c : Nat) (b : Pixel) (s : State) : (pixWrite r c b s).epoch = s.epoch := rfl
@[simp] theorem pixWrite_freeReads (r c : Nat) (b : Pixel) (s : State) : (pixWrite r c b s).freeReads = s.freeReads := rfl
@[simp] theorem pixWrite_events (r c : Nat) (b : Pixel) (s : State) : (pixWrite r c b s).events = s.events := rfl
@[simp] theorem pixWrite_answers (r c : Nat) (b : Pixel) (s : State) : (pixWrite r c b s).answers = s.answers := rfl

/-! `answer` -/

@[simp] theorem answer_sr (v : Byte) (s : State) : (answer v s).sr = s.sr := rfl
@[simp] theorem answer_pb (v : Byte) (s : State) : (answer v s).pb = s.pb := rfl
@[simp] theorem answer_dir (v : Byte) (s : State) : (answer v s).dir = s.dir := rfl
@[simp] theorem answer_seed (v : Byte) (s : State) : (answer v s).seed = s.seed := rfl
@[simp] theorem answer_status (v : Byte) (s : State) : (answer v s).status = s.status := rfl
@[simp] theorem answer_mem (v : Byte) (s : State) : (answer v s).mem = s.mem := rfl
@[simp] theorem answer_fsm (v : Byte) (s : State) : (answer v s).fsm = s.fsm := rfl
@[simp] theorem answer_chain (v : Byte) (s : State) : (answer v s).chain = s.chain := rfl
@[simp] theorem answer_x (v : Byte) (s : State) : (answer v s).x = s.x := rfl
@[simp] theorem answer_y (v : Byte) (s : State) : (answer v s).y = s.y := rfl
@[simp] theorem answer_cx (v : Byte) (s : State) : (answer v s).cx = s.cx := rfl
@[simp] theorem answer_cy (v : Byte) (s : State) : (answer v s).cy = s.cy := rfl
@[simp] theorem answer_retry (v : Byte) (s : State) : (answer v s).retry = s.retry := rfl
@[simp] theorem answer_scanDone (v : Byte) (s : State) : (answer v s).scanDone = s.scanDone := rfl
@[simp] theorem answer_blockX (v : Byte) (s : State) : (answer v s).blockX = s.blockX := rfl
@[simp] theorem answer_blockY (v : Byte) (s : State) : (answer v s).blockY = s.blockY := rfl
@[simp] theorem answer_epoch (v : Byte) (s : State) : (answer v s).epoch = s.epoch := rfl
@[simp] theorem answer_freeReads (v : Byte) (s : State) : (answer v s).freeReads = s.freeReads := rfl
@[simp] theorem answer_events (v : Byte) (s : State) : (answer v s).events = s.events := rfl
@[simp] theorem answer_answers (v : Byte) (s : State) : (answer v s).answers = v :: s.answers := rfl

/-! `answerFree` -/

@[simp] theorem answerFree_sr (s : State) : (answerFree s).sr = s.sr := rfl
@[simp] theorem answerFree_pb (s : State) : (answerFree s).pb = s.pb := rfl
@[simp] theorem answerFree_dir (s : State) : (answerFree s).dir = s.dir := rfl
@[simp] theorem answerFree_seed (s : State) : (answerFree s).seed = s.seed := rfl
@[simp] theorem answerFree_status (s : State) : (answerFree s).status = s.status := rfl
@[simp] theorem answerFree_mem (s : State) : (answerFree s).mem = s.mem := rfl
@[simp] theorem answerFree_fsm (s : State) : (answerFree s).fsm = s.fsm := rfl
@[simp] theorem answerFree_chain (s : State) : (answerFree s).chain = s.chain := rfl
@[simp] theorem answerFree_x (s : State) : (answerFree s).x = s.x := rfl
@[simp] theorem answerFree_y (s : State) : (answerFree s).y = s.y := rfl
@[simp] theorem answerFree_cx (s : State) : (answerFree s).cx = s.cx := rfl
@[simp] theorem answerFree_cy (s : State) : (answerFree s).cy = s.cy := rfl
@[simp] theorem answerFree_retry (s : State) : (answerFree s).retry = s.retry := rfl
@[simp] theorem answerFree_scanDone (s : State) : (answerFree s).scanDone = s.scanDone := rfl
@[simp] theorem answerFree_blockX (s : State) : (answerFree s).blockX = s.blockX := rfl
@[simp] theorem answerFree_blockY (s : State) : (answerFree s).blockY = s.blockY := rfl
@[simp] theorem answerFree_epoch (s : State) : (answerFree s).epoch = s.epoch := rfl
@[simp] theorem answerFree_freeReads (s : State) : (answerFree s).freeReads = s.freeReads + 1 := rfl
@[simp] theorem answerFree_events (s : State) : (answerFree s).events = s.events := rfl
@[simp] theorem answerFree_answers (s : State) : (answerFree s).answers = Config.busyRead s.freeReads :: s.answers := rfl

/-! `nextDirection` -/

@[simp] theorem nextDirection_sr (s : State) : (nextDirection s).sr = shiftedSr s.sr := rfl
@[simp] theorem nextDirection_pb (s : State) : (nextDirection s).pb = insertedBit s.sr := rfl
@[simp] theorem nextDirection_dir (s : State) : (nextDirection s).dir = (s.pb.setWidth 2 <<< 1) ||| (insertedBit s.sr).setWidth 2 := rfl
@[simp] theorem nextDirection_seed (s : State) : (nextDirection s).seed = s.seed := rfl
@[simp] theorem nextDirection_status (s : State) : (nextDirection s).status = s.status := rfl
@[simp] theorem nextDirection_mem (s : State) : (nextDirection s).mem = s.mem := rfl
@[simp] theorem nextDirection_fsm (s : State) : (nextDirection s).fsm = s.fsm := rfl
@[simp] theorem nextDirection_chain (s : State) : (nextDirection s).chain = s.chain := rfl
@[simp] theorem nextDirection_x (s : State) : (nextDirection s).x = s.x := rfl
@[simp] theorem nextDirection_y (s : State) : (nextDirection s).y = s.y := rfl
@[simp] theorem nextDirection_cx (s : State) : (nextDirection s).cx = s.cx := rfl
@[simp] theorem nextDirection_cy (s : State) : (nextDirection s).cy = s.cy := rfl
@[simp] theorem nextDirection_retry (s : State) : (nextDirection s).retry = s.retry := rfl
@[simp] theorem nextDirection_scanDone (s : State) : (nextDirection s).scanDone = s.scanDone := rfl
@[simp] theorem nextDirection_blockX (s : State) : (nextDirection s).blockX = s.blockX := rfl
@[simp] theorem nextDirection_blockY (s : State) : (nextDirection s).blockY = s.blockY := rfl
@[simp] theorem nextDirection_epoch (s : State) : (nextDirection s).epoch = s.epoch := rfl
@[simp] theorem nextDirection_freeReads (s : State) : (nextDirection s).freeReads = s.freeReads := rfl
@[simp] theorem nextDirection_events (s : State) : (nextDirection s).events = s.events := rfl
@[simp] theorem nextDirection_answers (s : State) : (nextDirection s).answers = s.answers := rfl

/-! `loadGenerator` -/

@[simp] theorem loadGenerator_sr (v : Byte) (s : State) : (loadGenerator v s).sr = v := rfl
@[simp] theorem loadGenerator_pb (v : Byte) (s : State) : (loadGenerator v s).pb = v.extractLsb' 0 1 := rfl
@[simp] theorem loadGenerator_dir (v : Byte) (s : State) : (loadGenerator v s).dir = s.dir := rfl
@[simp] theorem loadGenerator_seed (v : Byte) (s : State) : (loadGenerator v s).seed = s.seed := rfl
@[simp] theorem loadGenerator_status (v : Byte) (s : State) : (loadGenerator v s).status = s.status := rfl
@[simp] theorem loadGenerator_mem (v : Byte) (s : State) : (loadGenerator v s).mem = s.mem := rfl
@[simp] theorem loadGenerator_fsm (v : Byte) (s : State) : (loadGenerator v s).fsm = s.fsm := rfl
@[simp] theorem loadGenerator_chain (v : Byte) (s : State) : (loadGenerator v s).chain = s.chain := rfl
@[simp] theorem loadGenerator_x (v : Byte) (s : State) : (loadGenerator v s).x = s.x := rfl
@[simp] theorem loadGenerator_y (v : Byte) (s : State) : (loadGenerator v s).y = s.y := rfl
@[simp] theorem loadGenerator_cx (v : Byte) (s : State) : (loadGenerator v s).cx = s.cx := rfl
@[simp] theorem loadGenerator_cy (v : Byte) (s : State) : (loadGenerator v s).cy = s.cy := rfl
@[simp] theorem loadGenerator_retry (v : Byte) (s : State) : (loadGenerator v s).retry = s.retry := rfl
@[simp] theorem loadGenerator_scanDone (v : Byte) (s : State) : (loadGenerator v s).scanDone = s.scanDone := rfl
@[simp] theorem loadGenerator_blockX (v : Byte) (s : State) : (loadGenerator v s).blockX = s.blockX := rfl
@[simp] theorem loadGenerator_blockY (v : Byte) (s : State) : (loadGenerator v s).blockY = s.blockY := rfl
@[simp] theorem loadGenerator_epoch (v : Byte) (s : State) : (loadGenerator v s).epoch = s.epoch := rfl
@[simp] theorem loadGenerator_freeReads (v : Byte) (s : State) : (loadGenerator v s).freeReads = s.freeReads := rfl
@[simp] theorem loadGenerator_events (v : Byte) (s : State) : (loadGenerator v s).events = s.events := rfl
@[simp] theorem loadGenerator_answers (v : Byte) (s : State) : (loadGenerator v s).answers = s.answers := rfl

/-! `moveCursor` -/

@[simp] theorem moveCursor_sr (d : Direction) (s : State) : (moveCursor d s).sr = s.sr := rfl
@[simp] theorem moveCursor_pb (d : Direction) (s : State) : (moveCursor d s).pb = s.pb := rfl
@[simp] theorem moveCursor_dir (d : Direction) (s : State) : (moveCursor d s).dir = s.dir := rfl
@[simp] theorem moveCursor_seed (d : Direction) (s : State) : (moveCursor d s).seed = s.seed := rfl
@[simp] theorem moveCursor_status (d : Direction) (s : State) : (moveCursor d s).status = s.status := rfl
@[simp] theorem moveCursor_mem (d : Direction) (s : State) : (moveCursor d s).mem = s.mem := rfl
@[simp] theorem moveCursor_fsm (d : Direction) (s : State) : (moveCursor d s).fsm = s.fsm := rfl
@[simp] theorem moveCursor_chain (d : Direction) (s : State) : (moveCursor d s).chain = s.chain := rfl
@[simp] theorem moveCursor_x (d : Direction) (s : State) : (moveCursor d s).x = s.x + (offsetOf d).1 := rfl
@[simp] theorem moveCursor_y (d : Direction) (s : State) : (moveCursor d s).y = s.y + (offsetOf d).2 := rfl
@[simp] theorem moveCursor_cx (d : Direction) (s : State) : (moveCursor d s).cx = s.cx := rfl
@[simp] theorem moveCursor_cy (d : Direction) (s : State) : (moveCursor d s).cy = s.cy := rfl
@[simp] theorem moveCursor_retry (d : Direction) (s : State) : (moveCursor d s).retry = s.retry := rfl
@[simp] theorem moveCursor_scanDone (d : Direction) (s : State) : (moveCursor d s).scanDone = s.scanDone := rfl
@[simp] theorem moveCursor_blockX (d : Direction) (s : State) : (moveCursor d s).blockX = s.blockX := rfl
@[simp] theorem moveCursor_blockY (d : Direction) (s : State) : (moveCursor d s).blockY = s.blockY := rfl
@[simp] theorem moveCursor_epoch (d : Direction) (s : State) : (moveCursor d s).epoch = s.epoch := rfl
@[simp] theorem moveCursor_freeReads (d : Direction) (s : State) : (moveCursor d s).freeReads = s.freeReads := rfl
@[simp] theorem moveCursor_events (d : Direction) (s : State) : (moveCursor d s).events = s.events := rfl
@[simp] theorem moveCursor_answers (d : Direction) (s : State) : (moveCursor d s).answers = s.answers := rfl

/-! `startWalk` -/

@[simp] theorem startWalk_sr (s : State) : (startWalk s).sr = s.sr := rfl
@[simp] theorem startWalk_pb (s : State) : (startWalk s).pb = s.pb := rfl
@[simp] theorem startWalk_dir (s : State) : (startWalk s).dir = s.dir := rfl
@[simp] theorem startWalk_seed (s : State) : (startWalk s).seed = s.seed := rfl
@[simp] theorem startWalk_status (s : State) : (startWalk s).status = s.status := rfl
@[simp] theorem startWalk_mem (s : State) : (startWalk s).mem = s.mem := rfl
@[simp] theorem startWalk_fsm (s : State) : (startWalk s).fsm = .genWalk := rfl
@[simp] theorem startWalk_chain (s : State) : (startWalk s).chain = s.chain := rfl
@[simp] theorem startWalk_x (s : State) : (startWalk s).x = (s.cx : Int) := rfl
@[simp] theorem startWalk_y (s : State) : (startWalk s).y = (s.cy : Int) := rfl
@[simp] theorem startWalk_cx (s : State) : (startWalk s).cx = s.cx := rfl
@[simp] theorem startWalk_cy (s : State) : (startWalk s).cy = s.cy := rfl
@[simp] theorem startWalk_retry (s : State) : (startWalk s).retry = 0 := rfl
@[simp] theorem startWalk_scanDone (s : State) : (startWalk s).scanDone = s.scanDone := rfl
@[simp] theorem startWalk_blockX (s : State) : (startWalk s).blockX = s.blockX := rfl
@[simp] theorem startWalk_blockY (s : State) : (startWalk s).blockY = s.blockY := rfl
@[simp] theorem startWalk_epoch (s : State) : (startWalk s).epoch = s.epoch := rfl
@[simp] theorem startWalk_freeReads (s : State) : (startWalk s).freeReads = s.freeReads := rfl
@[simp] theorem startWalk_events (s : State) : (startWalk s).events = s.events := rfl
@[simp] theorem startWalk_answers (s : State) : (startWalk s).answers = s.answers := rfl

/-! `startRaster` -/

@[simp] theorem startRaster_sr (s : State) : (startRaster s).sr = s.sr := rfl
@[simp] theorem startRaster_pb (s : State) : (startRaster s).pb = s.pb := rfl
@[simp] theorem startRaster_dir (s : State) : (startRaster s).dir = s.dir := rfl
@[simp] theorem startRaster_seed (s : State) : (startRaster s).seed = s.seed := rfl
@[simp] theorem startRaster_status (s : State) : (startRaster s).status = s.status := rfl
@[simp] theorem startRaster_mem (s : State) : (startRaster s).mem = s.mem := rfl
@[simp] theorem startRaster_fsm (s : State) : (startRaster s).fsm = .rastRun := rfl
@[simp] theorem startRaster_chain (s : State) : (startRaster s).chain = s.chain := rfl
@[simp] theorem startRaster_x (s : State) : (startRaster s).x = s.x := rfl
@[simp] theorem startRaster_y (s : State) : (startRaster s).y = s.y := rfl
@[simp] theorem startRaster_cx (s : State) : (startRaster s).cx = s.cx := rfl
@[simp] theorem startRaster_cy (s : State) : (startRaster s).cy = s.cy := rfl
@[simp] theorem startRaster_retry (s : State) : (startRaster s).retry = s.retry := rfl
@[simp] theorem startRaster_scanDone (s : State) : (startRaster s).scanDone = s.scanDone := rfl
@[simp] theorem startRaster_blockX (s : State) : (startRaster s).blockX = 0 := rfl
@[simp] theorem startRaster_blockY (s : State) : (startRaster s).blockY = 0 := rfl
@[simp] theorem startRaster_epoch (s : State) : (startRaster s).epoch = s.epoch := rfl
@[simp] theorem startRaster_freeReads (s : State) : (startRaster s).freeReads = s.freeReads := rfl
@[simp] theorem startRaster_events (s : State) : (startRaster s).events = s.events := rfl
@[simp] theorem startRaster_answers (s : State) : (startRaster s).answers = s.answers := rfl

/-! `advanceBlock` -/

@[simp] theorem advanceBlock_sr (s : State) : (advanceBlock s).sr = s.sr := rfl
@[simp] theorem advanceBlock_pb (s : State) : (advanceBlock s).pb = s.pb := rfl
@[simp] theorem advanceBlock_dir (s : State) : (advanceBlock s).dir = s.dir := rfl
@[simp] theorem advanceBlock_seed (s : State) : (advanceBlock s).seed = s.seed := rfl
@[simp] theorem advanceBlock_status (s : State) : (advanceBlock s).status = s.status := rfl
@[simp] theorem advanceBlock_mem (s : State) : (advanceBlock s).mem = s.mem := rfl
@[simp] theorem advanceBlock_fsm (s : State) : (advanceBlock s).fsm = s.fsm := rfl
@[simp] theorem advanceBlock_chain (s : State) : (advanceBlock s).chain = s.chain := rfl
@[simp] theorem advanceBlock_x (s : State) : (advanceBlock s).x = s.x := rfl
@[simp] theorem advanceBlock_y (s : State) : (advanceBlock s).y = s.y := rfl
@[simp] theorem advanceBlock_cx (s : State) : (advanceBlock s).cx = s.cx := rfl
@[simp] theorem advanceBlock_cy (s : State) : (advanceBlock s).cy = s.cy := rfl
@[simp] theorem advanceBlock_retry (s : State) : (advanceBlock s).retry = s.retry := rfl
@[simp] theorem advanceBlock_scanDone (s : State) : (advanceBlock s).scanDone = s.scanDone := rfl
@[simp] theorem advanceBlock_blockX (s : State) : (advanceBlock s).blockX = if s.blockX < 18 then s.blockX + 1 else 0 := rfl
@[simp] theorem advanceBlock_blockY (s : State) : (advanceBlock s).blockY = if s.blockX < 18 then s.blockY else s.blockY + 1 := rfl
@[simp] theorem advanceBlock_epoch (s : State) : (advanceBlock s).epoch = s.epoch := rfl
@[simp] theorem advanceBlock_freeReads (s : State) : (advanceBlock s).freeReads = s.freeReads := rfl
@[simp] theorem advanceBlock_events (s : State) : (advanceBlock s).events = s.events := rfl
@[simp] theorem advanceBlock_answers (s : State) : (advanceBlock s).answers = s.answers := rfl

/-! `finishRaster` -/

@[simp] theorem finishRaster_sr (s : State) : (finishRaster s).sr = s.sr := rfl
@[simp] theorem finishRaster_pb (s : State) : (finishRaster s).pb = s.pb := rfl
@[simp] theorem finishRaster_dir (s : State) : (finishRaster s).dir = s.dir := rfl
@[simp] theorem finishRaster_seed (s : State) : (finishRaster s).seed = s.seed := rfl
@[simp] theorem finishRaster_status (s : State) : (finishRaster s).status = s.status &&& 0xFE := rfl
@[simp] theorem finishRaster_mem (s : State) : (finishRaster s).mem = s.mem := rfl
@[simp] theorem finishRaster_fsm (s : State) : (finishRaster s).fsm = .idle := rfl
@[simp] theorem finishRaster_chain (s : State) : (finishRaster s).chain = false := rfl
@[simp] theorem finishRaster_x (s : State) : (finishRaster s).x = s.x := rfl
@[simp] theorem finishRaster_y (s : State) : (finishRaster s).y = s.y := rfl
@[simp] theorem finishRaster_cx (s : State) : (finishRaster s).cx = s.cx := rfl
@[simp] theorem finishRaster_cy (s : State) : (finishRaster s).cy = s.cy := rfl
@[simp] theorem finishRaster_retry (s : State) : (finishRaster s).retry = s.retry := rfl
@[simp] theorem finishRaster_scanDone (s : State) : (finishRaster s).scanDone = s.scanDone := rfl
@[simp] theorem finishRaster_blockX (s : State) : (finishRaster s).blockX = s.blockX := rfl
@[simp] theorem finishRaster_blockY (s : State) : (finishRaster s).blockY = s.blockY := rfl
@[simp] theorem finishRaster_epoch (s : State) : (finishRaster s).epoch = s.epoch := rfl
@[simp] theorem finishRaster_freeReads (s : State) : (finishRaster s).freeReads = s.freeReads := rfl
@[simp] theorem finishRaster_events (s : State) : (finishRaster s).events = s.events := rfl
@[simp] theorem finishRaster_answers (s : State) : (finishRaster s).answers = s.answers := rfl

/-! `abortGen` -/

@[simp] theorem abortGen_sr (s : State) : (abortGen s).sr = s.sr := rfl
@[simp] theorem abortGen_pb (s : State) : (abortGen s).pb = s.pb := rfl
@[simp] theorem abortGen_dir (s : State) : (abortGen s).dir = s.dir := rfl
@[simp] theorem abortGen_seed (s : State) : (abortGen s).seed = s.seed := rfl
@[simp] theorem abortGen_status (s : State) : (abortGen s).status = (s.status &&& 0xFE) ||| 0x08 := rfl
@[simp] theorem abortGen_mem (s : State) : (abortGen s).mem = s.mem := rfl
@[simp] theorem abortGen_fsm (s : State) : (abortGen s).fsm = .idle := rfl
@[simp] theorem abortGen_chain (s : State) : (abortGen s).chain = false := rfl
@[simp] theorem abortGen_x (s : State) : (abortGen s).x = s.x := rfl
@[simp] theorem abortGen_y (s : State) : (abortGen s).y = s.y := rfl
@[simp] theorem abortGen_cx (s : State) : (abortGen s).cx = s.cx := rfl
@[simp] theorem abortGen_cy (s : State) : (abortGen s).cy = s.cy := rfl
@[simp] theorem abortGen_retry (s : State) : (abortGen s).retry = s.retry := rfl
@[simp] theorem abortGen_scanDone (s : State) : (abortGen s).scanDone = s.scanDone := rfl
@[simp] theorem abortGen_blockX (s : State) : (abortGen s).blockX = s.blockX := rfl
@[simp] theorem abortGen_blockY (s : State) : (abortGen s).blockY = s.blockY := rfl
@[simp] theorem abortGen_epoch (s : State) : (abortGen s).epoch = s.epoch := rfl
@[simp] theorem abortGen_freeReads (s : State) : (abortGen s).freeReads = s.freeReads := rfl
@[simp] theorem abortGen_events (s : State) : (abortGen s).events = s.events := rfl
@[simp] theorem abortGen_answers (s : State) : (abortGen s).answers = s.answers := rfl

/-! `resetBlock` -/

@[simp] theorem resetBlock_sr (s : State) : (resetBlock s).sr = 0x00 := rfl
@[simp] theorem resetBlock_pb (s : State) : (resetBlock s).pb = 0 := rfl
@[simp] theorem resetBlock_dir (s : State) : (resetBlock s).dir = 0 := rfl
@[simp] theorem resetBlock_seed (s : State) : (resetBlock s).seed = 0x00 := rfl
@[simp] theorem resetBlock_status (s : State) : (resetBlock s).status = 0x00 := rfl
@[simp] theorem resetBlock_mem (s : State) : (resetBlock s).mem = [] := rfl
@[simp] theorem resetBlock_fsm (s : State) : (resetBlock s).fsm = .idle := rfl
@[simp] theorem resetBlock_chain (s : State) : (resetBlock s).chain = false := rfl
@[simp] theorem resetBlock_x (s : State) : (resetBlock s).x = 0 := rfl
@[simp] theorem resetBlock_y (s : State) : (resetBlock s).y = 0 := rfl
@[simp] theorem resetBlock_cx (s : State) : (resetBlock s).cx = 0 := rfl
@[simp] theorem resetBlock_cy (s : State) : (resetBlock s).cy = 0 := rfl
@[simp] theorem resetBlock_retry (s : State) : (resetBlock s).retry = 0 := rfl
@[simp] theorem resetBlock_scanDone (s : State) : (resetBlock s).scanDone = false := rfl
@[simp] theorem resetBlock_blockX (s : State) : (resetBlock s).blockX = 0 := rfl
@[simp] theorem resetBlock_blockY (s : State) : (resetBlock s).blockY = 0 := rfl
@[simp] theorem resetBlock_epoch (s : State) : (resetBlock s).epoch = s.epoch + 1 := rfl
@[simp] theorem resetBlock_freeReads (s : State) : (resetBlock s).freeReads = s.freeReads := rfl
@[simp] theorem resetBlock_events (s : State) : (resetBlock s).events = s.events := rfl
@[simp] theorem resetBlock_answers (s : State) : (resetBlock s).answers = s.answers := rfl

/-! `setEvents` -/

@[simp] theorem setEvents_sr (es : List Event) (s : State) : (setEvents es s).sr = s.sr := rfl
@[simp] theorem setEvents_pb (es : List Event) (s : State) : (setEvents es s).pb = s.pb := rfl
@[simp] theorem setEvents_dir (es : List Event) (s : State) : (setEvents es s).dir = s.dir := rfl
@[simp] theorem setEvents_seed (es : List Event) (s : State) : (setEvents es s).seed = s.seed := rfl
@[simp] theorem setEvents_status (es : List Event) (s : State) : (setEvents es s).status = s.status := rfl
@[simp] theorem setEvents_mem (es : List Event) (s : State) : (setEvents es s).mem = s.mem := rfl
@[simp] theorem setEvents_fsm (es : List Event) (s : State) : (setEvents es s).fsm = s.fsm := rfl
@[simp] theorem setEvents_chain (es : List Event) (s : State) : (setEvents es s).chain = s.chain := rfl
@[simp] theorem setEvents_x (es : List Event) (s : State) : (setEvents es s).x = s.x := rfl
@[simp] theorem setEvents_y (es : List Event) (s : State) : (setEvents es s).y = s.y := rfl
@[simp] theorem setEvents_cx (es : List Event) (s : State) : (setEvents es s).cx = s.cx := rfl
@[simp] theorem setEvents_cy (es : List Event) (s : State) : (setEvents es s).cy = s.cy := rfl
@[simp] theorem setEvents_retry (es : List Event) (s : State) : (setEvents es s).retry = s.retry := rfl
@[simp] theorem setEvents_scanDone (es : List Event) (s : State) : (setEvents es s).scanDone = s.scanDone := rfl
@[simp] theorem setEvents_blockX (es : List Event) (s : State) : (setEvents es s).blockX = s.blockX := rfl
@[simp] theorem setEvents_blockY (es : List Event) (s : State) : (setEvents es s).blockY = s.blockY := rfl
@[simp] theorem setEvents_epoch (es : List Event) (s : State) : (setEvents es s).epoch = s.epoch := rfl
@[simp] theorem setEvents_freeReads (es : List Event) (s : State) : (setEvents es s).freeReads = s.freeReads := rfl
@[simp] theorem setEvents_events (es : List Event) (s : State) : (setEvents es s).events = es := rfl
@[simp] theorem setEvents_answers (es : List Event) (s : State) : (setEvents es s).answers = s.answers := rfl

end Sys2Proof.Machine
end

