-- ==== Sys2Proof/Laws/Flags.lean ====
section
/-! SUPPORT. How BUSY and each error bit move under the operations on STATUS. -/

namespace Sys2Proof.Machine

@[simp] theorem isBusy_setBusy (s : State) : isBusy (setBusy s) = true := by
  simp [isBusy]

@[simp] theorem isBusy_clearBusy (s : State) : isBusy (clearBusy s) = false := by
  simp [isBusy]

@[simp] theorem isBusy_raise (e : ErrorFlag) (s : State) : isBusy (raise e s) = isBusy s := by
  cases e <;> simp [isBusy, ErrorFlag.mask]

@[simp] theorem isBusy_clearErrors (d : Byte) (s : State) : isBusy (clearErrors d s) = isBusy s := by
  simp [isBusy]

@[simp] theorem hasError_setBusy (e : ErrorFlag) (s : State) : hasError e (setBusy s) = hasError e s := by
  cases e <;> simp [hasError, ErrorFlag.bit]

@[simp] theorem hasError_clearBusy (e : ErrorFlag) (s : State) : hasError e (clearBusy s) = hasError e s := by
  cases e <;> simp [hasError, ErrorFlag.bit]

@[simp] theorem hasError_raise_same (e : ErrorFlag) (s : State) : hasError e (raise e s) = true := by
  cases e <;> simp [hasError, ErrorFlag.bit, ErrorFlag.mask]

theorem hasError_raise_other {e f : ErrorFlag} (s : State) (h : e ≠ f) : hasError e (raise f s) = hasError e s := by
  cases e <;> cases f <;> first | exact absurd rfl h | simp [hasError, ErrorFlag.bit, ErrorFlag.mask]

@[simp] theorem hasError_clearErrors (e : ErrorFlag) (d : Byte) (s : State) :
    hasError e (clearErrors d s) = (hasError e s && !d.getLsbD e.bit) := by
  cases e <;> simp [hasError, ErrorFlag.bit]

@[simp] theorem isBusy_setEvents (es : List Event) (s : State) : isBusy (setEvents es s) = isBusy s := rfl

@[simp] theorem hasError_setEvents (e : ErrorFlag) (es : List Event) (s : State) :
    hasError e (setEvents es s) = hasError e s := rfl

/-- BUSY depends on STATUS alone. -/
theorem isBusy_congr {s t : State} (h : t.status = s.status) : isBusy t = isBusy s := by simp [isBusy, h]

/-- An error bit depends on STATUS alone. -/
theorem hasError_congr {s t : State} (e : ErrorFlag) (h : t.status = s.status) : hasError e t = hasError e s := by
  simp [hasError, h]

/-- Setting bits below bit 4 keeps the reserved bits zero. -/
theorem reserved_or {v m : Byte} (hv : v &&& 0xF0 = 0) (hm : m &&& 0xF0 = 0) : (v ||| m) &&& 0xF0 = 0 := by
  rw [BitVec.and_comm, BitVec.and_or_distrib_left, BitVec.and_comm 0xF0 v, BitVec.and_comm 0xF0 m, hv, hm]
  rfl

/-- Masking keeps the reserved bits zero. -/
theorem reserved_and {v : Byte} (m : Byte) (hv : v &&& 0xF0 = 0) : (v &&& m) &&& 0xF0 = 0 := by
  rw [BitVec.and_assoc, BitVec.and_comm m, ← BitVec.and_assoc, hv]
  exact BitVec.zero_and

end Sys2Proof.Machine
end

