-- ==== Sys2Proof/Laws/Generator.lean ====
section
/-! SUPPORT. The direction generator: what one draw leaves (spec/40_direction_generator.md R65), and that PB is bit 0 of SR
after it. -/

namespace Sys2Proof.Machine

/-- After a draw PB is bit 0 of SR. -/
theorem insertedBit_eq_bit0 (v : Byte) : (shiftedSr v).extractLsb' 0 1 = insertedBit v := by
  revert v; decide

theorem nextDirection_pb_eq_bit0 (s : State) : (nextDirection s).pb = (nextDirection s).sr.extractLsb' 0 1 :=
  (insertedBit_eq_bit0 s.sr).symm

theorem loadGenerator_pb_eq (v : Byte) (s : State) :
    (loadGenerator v s).pb = (loadGenerator v s).sr.extractLsb' 0 1 := rfl

/-- The code of a draw is the old PB followed by the inserted bit. -/
theorem nextDirection_dir_append (s : State) : (nextDirection s).dir = s.pb ++ insertedBit s.sr := by
  have h : ∀ p q : BitVec 1, (p.setWidth 2 <<< 1) ||| q.setWidth 2 = p ++ q := by decide
  exact h _ _

@[simp] theorem directionOf_codeOf (d : Direction) : directionOf (codeOf d) = d := by cases d <;> rfl

@[simp] theorem codeOf_directionOf (c : BitVec 2) : codeOf (directionOf c) = c := by revert c; decide

end Sys2Proof.Machine
end

