-- ==== Sys2Proof/Laws/Memory.lean ====
section
/-! SUPPORT. What a store into the arrays does to every later read, and that every memory operation keeps the canonical form. -/

namespace Sys2Proof.Machine

/-! Find after store. -/

@[simp] theorem memFind_memStore_same (m : Memory) (a : Nat) (b : Byte) : memFind (memStore m a b) a = some b := by
  induction m with
  | nil => simp [memStore, memFind]
  | cons c rest ih =>
    obtain ⟨k, v⟩ := c
    by_cases hlt : a < k
    · simp [memStore, memFind, hlt]
    · by_cases heq : a = k
      · simp [memStore, memFind, heq]
      · have hne : ¬ k = a := fun h => heq h.symm
        simp [memStore, memFind, hlt, heq, hne, ih]

theorem memFind_memStore_other (m : Memory) {a a' : Nat} (b : Byte) (h : a' ≠ a) :
    memFind (memStore m a b) a' = memFind m a' := by
  have hne : ¬ a = a' := fun e => h e.symm
  induction m with
  | nil => simp [memStore, memFind, hne]
  | cons c rest ih =>
    obtain ⟨k, v⟩ := c
    by_cases hlt : a < k
    · simp [memStore, memFind, hlt, hne]
    · by_cases heq : a = k
      · subst heq; simp [memStore, memFind, hne]
      · simp only [memStore, hlt, heq, if_false, memFind, ih]

/-! The canonical form. -/

theorem memStore_mem_cases {m : Memory} {a : Nat} {b : Byte} {c : Host.Cell} (h : c ∈ memStore m a b) :
    c = (a, b) ∨ c ∈ m := by
  induction m with
  | nil => simpa [memStore] using h
  | cons d rest ih =>
    obtain ⟨k, v⟩ := d
    by_cases hlt : a < k
    · simpa [memStore, hlt] using h
    · by_cases heq : a = k
      · subst heq
        simp only [memStore, Nat.lt_irrefl, if_false, if_true, List.mem_cons] at h
        rcases h with rfl | h
        · exact Or.inl rfl
        · exact Or.inr (List.mem_cons_of_mem _ h)
      · simp only [memStore, hlt, heq, if_false, List.mem_cons] at h
        rcases h with rfl | h
        · exact Or.inr List.mem_cons_self
        · rcases ih h with rfl | h
          · exact Or.inl rfl
          · exact Or.inr (List.mem_cons_of_mem _ h)

theorem wf_iff (m : Memory) :
    Memory.wf m = true ↔ m.Pairwise (fun p q => p.1 < q.1) ∧ ∀ c ∈ m, cellFits c = true := by
  simp [Memory.wf]

theorem memStore_wf {m : Memory} {a : Nat} {b : Byte} (hm : Memory.wf m = true) (hc : cellFits (a, b) = true) :
    Memory.wf (memStore m a b) = true := by
  rw [wf_iff] at hm ⊢
  refine ⟨?_, fun c hcm => ?_⟩
  · replace hm := hm.1
    induction m with
    | nil => simp [memStore]
    | cons d rest ih =>
      obtain ⟨k, v⟩ := d
      have ⟨hk, hr⟩ := List.pairwise_cons.mp hm
      by_cases hlt : a < k
      · simp only [memStore, hlt, if_true]
        refine List.pairwise_cons.mpr ⟨fun q hq => ?_, hm⟩
        rcases List.mem_cons.mp hq with rfl | hq
        · exact hlt
        · exact Nat.lt_trans hlt (hk q hq)
      · by_cases heq : a = k
        · subst heq
          simp only [memStore, Nat.lt_irrefl, if_false, if_true]
          exact List.pairwise_cons.mpr ⟨hk, hr⟩
        · simp only [memStore, hlt, heq, if_false]
          refine List.pairwise_cons.mpr ⟨fun q hq => ?_, ih hr⟩
          rcases memStore_mem_cases hq with rfl | hq
          · exact Nat.lt_of_le_of_ne (Nat.le_of_not_lt hlt) (fun e => heq e.symm)
          · exact hk q hq
  · rcases memStore_mem_cases hcm with rfl | h
    · exact hc
    · exact hm.2 c h

theorem wall_cellFits {x y : Nat} (hx : x ≤ 17) (hy : y ≤ 8) (v : WallCell) :
    cellFits (wallAddr x y, v.setWidth 8) = true := by
  have hv : (BitVec.setWidth 8 v).toNat < 8 := by
    have := v.isLt
    simp only [BitVec.toNat_setWidth]; omega
  have h1 : 0x100 ≤ wallAddr x y := by unfold wallAddr; omega
  have h2 : wallAddr x y ≤ 0x1A1 := by unfold wallAddr; omega
  simp only [cellFits, h1, h2, hv, decide_true, Bool.and_self, Bool.true_or]

theorem pix_cellFits {r c : Nat} (hr : r ≤ 19) (hc : c ≤ 37) (b : Pixel) :
    cellFits (pixAddr r c, b.setWidth 8) = true := by
  have hb : (BitVec.setWidth 8 b).toNat < 2 := by
    have := b.isLt
    simp only [BitVec.toNat_setWidth]; omega
  have h1 : 0x400 ≤ pixAddr r c := by unfold pixAddr; omega
  have h2 : pixAddr r c ≤ 0x6F7 := by unfold pixAddr; omega
  simp only [cellFits, h1, h2, hb, decide_true, Bool.and_self, Bool.or_true]

theorem wallWrite_wf {s : State} {x y : Nat} (v : WallCell) (hx : x ≤ 17) (hy : y ≤ 8) (h : Memory.wf s.mem = true) :
    Memory.wf (wallWrite x y v s).mem = true := memStore_wf h (wall_cellFits hx hy v)

theorem pixWrite_wf {s : State} {r c : Nat} (b : Pixel) (hr : r ≤ 19) (hc : c ≤ 37) (h : Memory.wf s.mem = true) :
    Memory.wf (pixWrite r c b s).mem = true := memStore_wf h (pix_cellFits hr hc b)

theorem reset_mem_wf : Memory.wf State.reset.mem = true := by decide

/-! Reads of bytes, cells and pixels after a store. -/

theorem readByte_congr {s t : State} (hm : t.mem = s.mem) (he : t.epoch = s.epoch) (a : Nat) :
    readByte t a = readByte s a := by simp [readByte, hm, he]

theorem wallRead_congr {s t : State} (hm : t.mem = s.mem) (he : t.epoch = s.epoch) (x y : Nat) :
    wallRead t x y = wallRead s x y := by simp [wallRead, readByte_congr hm he]

theorem pixRead_congr {s t : State} (hm : t.mem = s.mem) (he : t.epoch = s.epoch) (r c : Nat) :
    pixRead t r c = pixRead s r c := by simp [pixRead, readByte_congr hm he]

theorem readByte_wallWrite_other (s : State) (x y : Nat) (v : WallCell) {a : Nat} (h : a ≠ wallAddr x y) :
    readByte (wallWrite x y v s) a = readByte s a := by
  simp [readByte, memFind_memStore_other _ _ h]

theorem readByte_pixWrite_other (s : State) (r c : Nat) (b : Pixel) {a : Nat} (h : a ≠ pixAddr r c) :
    readByte (pixWrite r c b s) a = readByte s a := by
  simp [readByte, memFind_memStore_other _ _ h]

@[simp] theorem readByte_wallWrite_same (s : State) (x y : Nat) (v : WallCell) :
    readByte (wallWrite x y v s) (wallAddr x y) = v.setWidth 8 := by simp [readByte]

@[simp] theorem readByte_pixWrite_same (s : State) (r c : Nat) (b : Pixel) :
    readByte (pixWrite r c b s) (pixAddr r c) = b.setWidth 8 := by simp [readByte]

theorem setWidth_cell_roundtrip (v : WallCell) : (v.setWidth 8).setWidth 3 = v := by
  revert v; decide

theorem setWidth_pixel_roundtrip (b : Pixel) : (b.setWidth 8).setWidth 1 = b := by
  revert b; decide

@[simp] theorem wallRead_wallWrite_same (s : State) (x y : Nat) (v : WallCell) :
    wallRead (wallWrite x y v s) x y = v := by
  rw [wallRead, readByte_wallWrite_same, setWidth_cell_roundtrip]

@[simp] theorem pixRead_pixWrite_same (s : State) (r c : Nat) (b : Pixel) :
    pixRead (pixWrite r c b s) r c = b := by
  rw [pixRead, readByte_pixWrite_same, setWidth_pixel_roundtrip]

theorem wallAddr_inj {x y x' y' : Nat} (hx : x ≤ 17) (hx' : x' ≤ 17) (h : wallAddr x y = wallAddr x' y') :
    x = x' ∧ y = y' := by
  unfold wallAddr at h; omega

theorem pixAddr_inj {r c r' c' : Nat} (hc : c ≤ 37) (hc' : c' ≤ 37) (h : pixAddr r c = pixAddr r' c') :
    r = r' ∧ c = c' := by
  unfold pixAddr at h; omega

theorem wallAddr_ne_pixAddr {x y : Nat} (r c : Nat) (hx : x ≤ 17) (hy : y ≤ 8) : wallAddr x y ≠ pixAddr r c := by
  unfold wallAddr pixAddr; omega

theorem wallRead_wallWrite_other (s : State) {x y x' y' : Nat} (v : WallCell) (hx : x ≤ 17) (hx' : x' ≤ 17)
    (h : ¬ (x' = x ∧ y' = y)) : wallRead (wallWrite x y v s) x' y' = wallRead s x' y' := by
  rw [wallRead, readByte_wallWrite_other, wallRead]
  exact fun e => h (wallAddr_inj hx' hx e)

theorem pixRead_pixWrite_other (s : State) {r c r' c' : Nat} (b : Pixel) (hc : c ≤ 37) (hc' : c' ≤ 37)
    (h : ¬ (r' = r ∧ c' = c)) : pixRead (pixWrite r c b s) r' c' = pixRead s r' c' := by
  rw [pixRead, readByte_pixWrite_other, pixRead]
  exact fun e => h (pixAddr_inj hc' hc e)

theorem pixRead_wallWrite (s : State) {x y : Nat} (v : WallCell) (r c : Nat) (hx : x ≤ 17) (hy : y ≤ 8) :
    pixRead (wallWrite x y v s) r c = pixRead s r c := by
  rw [pixRead, readByte_wallWrite_other, pixRead]
  exact fun e => wallAddr_ne_pixAddr r c hx hy e.symm

theorem wallRead_pixWrite (s : State) {x y : Nat} (b : Pixel) (r c : Nat) (hx : x ≤ 17) (hy : y ≤ 8) :
    wallRead (pixWrite r c b s) x y = wallRead s x y := by
  rw [wallRead, readByte_pixWrite_other, wallRead]
  exact wallAddr_ne_pixAddr r c hx hy

end Sys2Proof.Machine
end

