-- ==== Sys2Proof/Laws/Walls.lean ====
section
/-! SUPPORT. The operations of the carver and the expander on the arrays: what each writes, what each leaves, and that each
keeps the canonical form. -/

namespace Sys2Proof.Machine

/-! Operations that change memory alone. -/

theorem wallWrite_frame (x y : Nat) (v : WallCell) (s : State) :
    wallWrite x y v s = { s with mem := (wallWrite x y v s).mem } := rfl

theorem wallOr_frame (x y : Nat) (v : WallCell) (s : State) :
    wallOr x y v s = { s with mem := (wallOr x y v s).mem } := rfl

theorem carveEdge_frame (x y : Nat) (d : Direction) (s : State) :
    carveEdge x y d s = { s with mem := (carveEdge x y d s).mem } := by cases d <;> rfl

theorem putBlock_frame (bx b_y : Nat) (p : BlockPattern) (s : State) :
    putBlock bx b_y p s = { s with mem := (putBlock bx b_y p s).mem } := rfl

/-- Filling a list of cells changes memory alone. -/
theorem fill_frame (f : Nat → Nat → WallCell) (l : List (Nat × Nat)) (s : State) :
    l.foldr (fun c t => wallWrite c.1 c.2 (f c.1 c.2) t) s =
      { s with mem := (l.foldr (fun c t => wallWrite c.1 c.2 (f c.1 c.2) t) s).mem } := by
  induction l with
  | nil => rfl
  | cons c l ih => rw [List.foldr_cons, wallWrite_frame, ih]

theorem initWall_frame (s : State) : initWall s = { s with mem := (initWall s).mem } := fill_frame _ _ s

/-! The initial grid (spec/41_maze_carver.md R74). -/

theorem mem_gridCells {x y : Nat} : (x, y) ∈ gridCells ↔ x ≤ 17 ∧ y ≤ 8 := by
  simp only [gridCells, List.mem_flatMap, List.mem_map, List.mem_range, Prod.mk.injEq]
  constructor
  · rintro ⟨b, hb, a, ha, rfl, rfl⟩; omega
  · rintro ⟨hx, hy⟩; exact ⟨y, by omega, x, by omega, rfl, rfl⟩

/-- A filled cell reads as its filling; any other location keeps its byte. -/
theorem readByte_fill_other (f : Nat → Nat → WallCell) (l : List (Nat × Nat)) (s : State) {a : Nat}
    (h : ∀ c ∈ l, a ≠ wallAddr c.1 c.2) :
    readByte (l.foldr (fun c t => wallWrite c.1 c.2 (f c.1 c.2) t) s) a = readByte s a := by
  induction l with
  | nil => rfl
  | cons c l ih =>
    rw [List.foldr_cons, readByte_wallWrite_other _ _ _ _ (h c List.mem_cons_self)]
    exact ih fun d hd => h d (List.mem_cons_of_mem _ hd)

theorem wallRead_fill (f : Nat → Nat → WallCell) (l : List (Nat × Nat)) (s : State) {x y : Nat}
    (hl : ∀ c ∈ l, c.1 ≤ 17) (hx : x ≤ 17) (h : (x, y) ∈ l) :
    wallRead (l.foldr (fun c t => wallWrite c.1 c.2 (f c.1 c.2) t) s) x y = f x y := by
  induction l with
  | nil => cases h
  | cons c l ih =>
    rw [List.foldr_cons]
    by_cases hc : x = c.1 ∧ y = c.2
    · obtain ⟨rfl, rfl⟩ := hc; simp
    · rw [wallRead_wallWrite_other _ _ (hl c List.mem_cons_self) hx hc]
      refine ih (fun d hd => hl d (List.mem_cons_of_mem _ hd)) ?_
      rcases List.mem_cons.mp h with h | h
      · exact absurd ⟨congrArg Prod.fst h, congrArg Prod.snd h⟩ hc
      · exact h

theorem wallRead_initWall (s : State) {x y : Nat} (hx : x ≤ 17) (hy : y ≤ 8) :
    wallRead (initWall s) x y = initCell x y :=
  wallRead_fill initCell gridCells s (fun c hc => (mem_gridCells (x := c.1) (y := c.2)).mp hc |>.1) hx
    (mem_gridCells.mpr ⟨hx, hy⟩)

/-- Bytes outside the WALL window keep their value. -/
theorem readByte_initWall_other (s : State) {a : Nat} (h : a < 0x100 ∨ 0x1A1 < a) :
    readByte (initWall s) a = readByte s a := by
  refine readByte_fill_other initCell gridCells s fun c hc => ?_
  have := (mem_gridCells (x := c.1) (y := c.2)).mp hc
  unfold wallAddr; omega

theorem fill_wf (f : Nat → Nat → WallCell) (l : List (Nat × Nat)) (s : State) (hl : ∀ c ∈ l, c.1 ≤ 17 ∧ c.2 ≤ 8)
    (h : Memory.wf s.mem = true) : Memory.wf (l.foldr (fun c t => wallWrite c.1 c.2 (f c.1 c.2) t) s).mem = true := by
  induction l with
  | nil => exact h
  | cons c l ih =>
    rw [List.foldr_cons]
    have hc := hl c List.mem_cons_self
    exact wallWrite_wf _ hc.1 hc.2 (ih fun d hd => hl d (List.mem_cons_of_mem _ hd))

theorem initWall_wf {s : State} (h : Memory.wf s.mem = true) : Memory.wf (initWall s).mem = true :=
  fill_wf initCell gridCells s (fun c hc => (mem_gridCells (x := c.1) (y := c.2)).mp hc) h

/-! Setting bits of one cell. -/

@[simp] theorem wallRead_wallOr_same (s : State) (x y : Nat) (v : WallCell) :
    wallRead (wallOr x y v s) x y = wallRead s x y ||| v := by simp [wallOr]

theorem wallRead_wallOr_other (s : State) {x y x' y' : Nat} (v : WallCell) (hx : x ≤ 17) (hx' : x' ≤ 17)
    (h : ¬ (x' = x ∧ y' = y)) : wallRead (wallOr x y v s) x' y' = wallRead s x' y' :=
  wallRead_wallWrite_other s _ hx hx' h

theorem readByte_wallOr_other (s : State) (x y : Nat) (v : WallCell) {a : Nat} (h : a ≠ wallAddr x y) :
    readByte (wallOr x y v s) a = readByte s a := readByte_wallWrite_other s x y _ h

theorem wallOr_wf {s : State} {x y : Nat} (v : WallCell) (hx : x ≤ 17) (hy : y ≤ 8) (h : Memory.wf s.mem = true) :
    Memory.wf (wallOr x y v s).mem = true := wallWrite_wf _ hx hy h

/-- The bits of a cell after a store of bits anywhere in the grid: a bit is never cleared. -/
theorem getLsbD_wallOr_mono (s : State) {x y x' y' : Nat} (v : WallCell) (k : Nat) (hx : x ≤ 17) (hx' : x' ≤ 17)
    (h : (wallRead s x' y').getLsbD k = true) : (wallRead (wallOr x y v s) x' y').getLsbD k = true := by
  by_cases hc : x' = x ∧ y' = y
  · obtain ⟨rfl, rfl⟩ := hc; simp [h]
  · rw [wallRead_wallOr_other s v hx hx' hc]; exact h

/-! The edge a carve sets (R79): the cell that owns it and its bit there (spec/10_state.md R26). -/

theorem carveEdge_eq (x y : Nat) (d : Direction) (s : State) :
    carveEdge x y d s = wallOr (edgeOwner x y d).1 (edgeOwner x y d).2 (edgeMask d) s := by
  cases d <;> rfl

/-- Inside the carvable region a direction is blocked exactly when its edge bit is set (R78). -/
theorem isBlocked_eq (s : State) {x y : Nat} (d : Direction) (hx : x ≤ 16) (hy : y ≤ 7) :
    isBlocked s x y d = (wallRead s (edgeOwner x y d).1 (edgeOwner x y d).2).getLsbD (edgeBit d) := by
  cases d
  · rfl
  · have : (x == 17) = false := by simp; omega
    simp [isBlocked, edgeOwner, edgeBit, this]
  · have : (y == 8) = false := by simp; omega
    simp [isBlocked, edgeOwner, edgeBit, this]
  · rfl

theorem edgeOwner_inGrid {x y : Nat} (d : Direction) (hx : x ≤ 16) (hy : y ≤ 7) :
    (edgeOwner x y d).1 ≤ 17 ∧ (edgeOwner x y d).2 ≤ 8 := by
  cases d <;> simp only [edgeOwner] <;> omega

theorem carveEdge_wf {s : State} {x y : Nat} (d : Direction) (hx : x ≤ 16) (hy : y ≤ 7) (h : Memory.wf s.mem = true) :
    Memory.wf (carveEdge x y d s).mem = true := by
  rw [carveEdge_eq]
  exact wallOr_wf _ (edgeOwner_inGrid d hx hy).1 (edgeOwner_inGrid d hx hy).2 h

theorem carveEdge_epoch (x y : Nat) (d : Direction) (s : State) : (carveEdge x y d s).epoch = s.epoch := by
  rw [carveEdge_frame]

/-! The regions of the grid (spec/00_scope.md R7). -/

theorem inRegion_iff {x y : Int} : inRegion x y = true ↔ 0 ≤ x ∧ x ≤ 16 ∧ 0 ≤ y ∧ y ≤ 7 := by simp [inRegion]

theorem inGrid_iff {x y : Int} : inGrid x y = true ↔ 0 ≤ x ∧ x ≤ 17 ∧ 0 ≤ y ∧ y ≤ 8 := by simp [inGrid]

theorem inGrid_of_inRegion {x y : Int} (h : inRegion x y = true) : inGrid x y = true := by
  rw [inRegion_iff] at h; rw [inGrid_iff]; omega

/-- Where a position is no pole it is in the region and unvisited (R75). -/
theorem not_isPole_iff {s : State} {x y : Int} :
    isPole s x y = false ↔ inRegion x y = true ∧ (wallRead s x.toNat y.toNat).getLsbD 0 = false := by
  simp [isPole]

theorem isPole_congr {s t : State} (hm : t.mem = s.mem) (he : t.epoch = s.epoch) (x y : Int) :
    isPole t x y = isPole s x y := by simp [isPole, wallRead_congr hm he]

theorem isBlocked_congr {s t : State} (hm : t.mem = s.mem) (he : t.epoch = s.epoch) (x y : Nat) (d : Direction) :
    isBlocked t x y d = isBlocked s x y d := by cases d <;> simp [isBlocked, wallRead_congr hm he]

theorem blockIndex_congr {s t : State} (hm : t.mem = s.mem) (he : t.epoch = s.epoch) (bx b_y : Nat) :
    blockIndex t bx b_y = blockIndex s bx b_y := by simp [blockIndex, wallRead_congr hm he]

/-! A block (spec/42_layout_rasterizer.md R90). -/

theorem readByte_putBlock_other (bx b_y : Nat) (p : BlockPattern) (s : State) {a : Nat}
    (h : ∀ r c, r / 2 = b_y → c / 2 = bx → a ≠ pixAddr r c) :
    readByte (putBlock bx b_y p s) a = readByte s a := by
  unfold putBlock
  rw [readByte_pixWrite_other _ _ _ _ (h _ _ (by omega) (by omega)),
    readByte_pixWrite_other _ _ _ _ (h _ _ (by omega) (by omega)),
    readByte_pixWrite_other _ _ _ _ (h _ _ (by omega) (by omega)),
    readByte_pixWrite_other _ _ _ _ (h _ _ (by omega) (by omega))]

theorem wallRead_putBlock (bx b_y : Nat) (p : BlockPattern) (s : State) {x y : Nat} (hx : x ≤ 17) (hy : y ≤ 8) :
    wallRead (putBlock bx b_y p s) x y = wallRead s x y := by
  unfold putBlock
  rw [wallRead_pixWrite _ _ _ _ hx hy, wallRead_pixWrite _ _ _ _ hx hy, wallRead_pixWrite _ _ _ _ hx hy,
    wallRead_pixWrite _ _ _ _ hx hy]

theorem putBlock_wf {s : State} {bx b_y : Nat} (p : BlockPattern) (hx : bx ≤ 18) (hy : b_y ≤ 9)
    (h : Memory.wf s.mem = true) : Memory.wf (putBlock bx b_y p s).mem = true :=
  pixWrite_wf _ (by omega) (by omega)
    (pixWrite_wf _ (by omega) (by omega)
      (pixWrite_wf _ (by omega) (by omega) (pixWrite_wf _ (by omega) (by omega) h)))

end Sys2Proof.Machine
end

