-- ==== Sys2Proof/Laws/Engine.lean ====
section
/-! SUPPORT. What each engine step can do, said once (spec/41_maze_carver.md R81, spec/42_layout_rasterizer.md R88). -/

namespace Sys2Proof.Machine

/-- A host write that needs BUSY = 0: dropped with ERR_BUSY, or done. -/
theorem whenIdle_next {s t : State} {f : State → State} :
    whenIdle s f = .next t ↔ (isBusy s = true ∧ t = raise .busy s) ∨ (isBusy s = false ∧ t = f s) := by
  unfold whenIdle
  cases h : isBusy s <;> simp [eq_comm]

theorem whenIdle_idle {s : State} (f : State → State) (h : isBusy s = false) : whenIdle s f = .next (f s) := by
  simp [whenIdle, h]

theorem whenIdle_busy {s : State} (f : State → State) (h : isBusy s = true) :
    whenIdle s f = .next (raise .busy s) := by
  simp [whenIdle, h]

/-! The scan. -/

/-- The next candidate, or none left (R76). -/
theorem advanceScan_cases (s : State) :
    (s.cy < 7 ∧ advanceScan s = { s with fsm := .genScan, cy := s.cy + 1 }) ∨
    (7 ≤ s.cy ∧ 0 < s.cx ∧ advanceScan s = { s with fsm := .genScan, cx := s.cx - 1, cy := 0 }) ∨
    (7 ≤ s.cy ∧ s.cx = 0 ∧ advanceScan s = { s with fsm := .genScan, scanDone := true }) := by
  unfold advanceScan
  by_cases h1 : s.cy < 7
  · exact .inl ⟨h1, by simp [h1]⟩
  · by_cases h2 : 0 < s.cx
    · exact .inr (.inl ⟨by omega, h2, by simp [h1, h2]⟩)
    · exact .inr (.inr ⟨by omega, by omega, by simp [h1, h2]⟩)

/-- Advancing the scan touches the scan alone. -/
theorem advanceScan_frame (s : State) :
    advanceScan s = { s with
      fsm := .genScan, cx := (advanceScan s).cx, cy := (advanceScan s).cy,
      scanDone := (advanceScan s).scanDone } := by
  rcases advanceScan_cases s with ⟨_, h⟩ | ⟨_, _, h⟩ | ⟨_, _, h⟩ <;> rw [h]

@[simp] theorem advanceScan_fsm (s : State) : (advanceScan s).fsm = .genScan := by rw [advanceScan_frame]
@[simp] theorem advanceScan_mem (s : State) : (advanceScan s).mem = s.mem := by rw [advanceScan_frame]
@[simp] theorem advanceScan_epoch (s : State) : (advanceScan s).epoch = s.epoch := by rw [advanceScan_frame]
@[simp] theorem advanceScan_status (s : State) : (advanceScan s).status = s.status := by rw [advanceScan_frame]

/-- The end of GEN (R73, spec/43_command_control.md R99). -/
theorem finishGen_cases (s : State) :
    (s.chain = true ∧ finishGen s = startRaster s) ∨
    (s.chain = false ∧ finishGen s = clearBusy { s with fsm := .idle }) := by
  unfold finishGen
  cases s.chain <;> simp

/-- One engine step in GEN_SCAN (R81 item 2). -/
theorem scanStep_cases (s : State) :
    (s.scanDone = true ∧ scanStep s = finishGen s) ∨
    (s.scanDone = false ∧ isPole s (s.cx : Int) (s.cy : Int) = true ∧ scanStep s = advanceScan s) ∨
    (s.scanDone = false ∧ isPole s (s.cx : Int) (s.cy : Int) = false ∧ scanStep s = startWalk s) := by
  unfold scanStep
  cases s.scanDone <;> cases isPole s (s.cx : Int) (s.cy : Int) <;> simp

/-! The walk. -/

/-- The cap is compared exactly (spec/00_scope.md R8). -/
theorem capReached_iff (n : Nat) : capReached n = true ↔ n = Config.retryCap := by
  simp only [capReached, Bool.and_eq_true, decide_eq_true_eq, and_iff_right_iff_imp]
  rintro rfl
  unfold Config.retryCap; omega

theorem retryCap_ge : 8 ≤ Config.retryCap := by unfold Config.retryCap; omega

/-- A blocked draw: counted, or GEN aborts (R77, R80). -/
theorem retryDraw_cases (s : State) :
    (s.retry + 1 = Config.retryCap ∧ retryDraw s = abortGen { s with retry := s.retry + 1 }) ∨
    (s.retry + 1 ≠ Config.retryCap ∧ retryDraw s = { s with retry := s.retry + 1 }) := by
  unfold retryDraw
  by_cases h : s.retry + 1 = Config.retryCap
  · exact .inl ⟨h, by simp [(capReached_iff _).mpr h]⟩
  · refine .inr ⟨h, ?_⟩
    have : capReached (s.retry + 1) = false := by
      rw [← Bool.not_eq_true, capReached_iff]; exact h
    simp [this]

/-- An open draw: the walk goes on, or ends on a pole (R77, R79). -/
theorem carveDraw_cases (d : Direction) (s : State) :
    (isPole (carved d s) (carved d s).x (carved d s).y = true ∧ carveDraw d s = advanceScan (carved d s)) ∨
    (isPole (carved d s) (carved d s).x (carved d s).y = false ∧ carveDraw d s = carved d s) := by
  unfold carveDraw
  cases isPole (carved d s) (carved d s).x (carved d s).y <;> simp

theorem carved_frame (d : Direction) (s : State) :
    carved d s = { s with
      mem := (carved d s).mem, x := s.x + (offsetOf d).1, y := s.y + (offsetOf d).2, retry := 0 } := by
  unfold carved moveCursor
  rw [carveEdge_frame]

theorem drawn_frame (s : State) :
    drawn s = { s with
      sr := shiftedSr s.sr, pb := insertedBit s.sr, dir := (nextDirection s).dir, mem := (drawn s).mem } := rfl

/-- One pass of the walk's loop (R77): the draw is blocked, or it carves. -/
theorem walkPass_cases (s : State) :
    (isBlocked (drawn s) s.x.toNat s.y.toNat (drawnDirection s) = true ∧ walkPass s = retryDraw (drawn s)) ∨
    (isBlocked (drawn s) s.x.toNat s.y.toNat (drawnDirection s) = false ∧
      walkPass s = carveDraw (drawnDirection s) (drawn s)) := by
  unfold walkPass
  cases isBlocked (drawn s) s.x.toNat s.y.toNat (drawnDirection s) <;> simp

/-- One engine step in GEN_WALK. -/
theorem walkStep_next {s t : State} : walkStep s = .next t ↔ inGrid s.x s.y = true ∧ t = walkPass s := by
  unfold walkStep
  cases inGrid s.x s.y <;> simp [eq_comm]

/-! The expander. -/

/-- One engine step in RAST_RUN. -/
theorem rasterStep_next {s t : State} : rasterStep s = .next t ↔
    (10 ≤ s.blockY ∧ t = finishRaster s) ∨ (s.blockY < 10 ∧ s.blockX < 19 ∧ t = blockDrawn s) := by
  unfold rasterStep
  by_cases h1 : 10 ≤ s.blockY
  · simp only [h1, if_true, Host.Outcome.next.injEq, true_and, Nat.not_lt.mpr h1, false_and, or_false, eq_comm]
  · by_cases h2 : 19 ≤ s.blockX
    · simp [h1, h2]
    · simp only [h1, h2, if_false, Host.Outcome.next.injEq, false_and, false_or, Nat.lt_of_not_le h1,
        Nat.lt_of_not_le h2, true_and]
      exact eq_comm

/-! The issue of GEN. -/

/-- What the issue step of GEN leaves, but for the cells it writes (R81 item 1). -/
theorem startGen_frame (s : State) :
    startGen s = { s with
      sr := s.seed, pb := s.seed.extractLsb' 0 1, status := s.status ||| 0x01, mem := (startGen s).mem,
      cx := 16, cy := 0, scanDone := false, fsm := .genScan } := by
  have h := initWall_frame (loadGenerator s.seed (setBusy s))
  unfold startGen
  generalize initWall (loadGenerator s.seed (setBusy s)) = w at h ⊢
  rw [h]
  rfl

theorem startGen_mem (s : State) : (startGen s).mem = (initWall (loadGenerator s.seed (setBusy s))).mem := by
  rw [startGen]

/-- One turn of the engine. -/
theorem engineStep_cases {s t : State} (h : engineStep s = .next t) :
    (isBusy s = false ∧ t = s) ∨
    (isBusy s = true ∧ s.fsm = .idle ∧ t = s) ∨
    (isBusy s = true ∧ s.fsm = .genScan ∧ t = scanStep s) ∨
    (isBusy s = true ∧ s.fsm = .genWalk ∧ inGrid s.x s.y = true ∧ t = walkPass s) ∨
    (isBusy s = true ∧ s.fsm = .rastRun ∧ s.blockY < 10 ∧ s.blockX < 19 ∧ t = blockDrawn s) ∨
    (isBusy s = true ∧ s.fsm = .rastRun ∧ 10 ≤ s.blockY ∧ t = finishRaster s) := by
  unfold engineStep at h
  cases hb : isBusy s
  · simp only [hb, Bool.false_eq_true, if_false, Host.Outcome.next.injEq] at h
    exact .inl ⟨rfl, h.symm⟩
  · simp only [hb, if_true] at h
    cases hf : s.fsm <;> simp only [hf] at h
    · exact .inr (.inl ⟨rfl, rfl, (Host.Outcome.next.inj h).symm⟩)
    · exact .inr (.inr (.inl ⟨rfl, rfl, (Host.Outcome.next.inj h).symm⟩))
    · have := walkStep_next.mp h
      exact .inr (.inr (.inr (.inl ⟨rfl, rfl, this.1, this.2⟩)))
    · rcases rasterStep_next.mp h with ⟨h1, h2⟩ | ⟨h1, h2, h3⟩
      · exact .inr (.inr (.inr (.inr (.inr ⟨rfl, rfl, h1, h2⟩))))
      · exact .inr (.inr (.inr (.inr (.inl ⟨rfl, rfl, h1, h2, h3⟩))))

end Sys2Proof.Machine
end

