-- ==== Sys2Proof/Laws/PerInstr.lean ====
section
/-! SUPPORT. The facts about every command as syntax, one lemma per constructor of `Instr`. -/

namespace Sys2Proof.Laws.EncodedFields

/-- The command byte has a zero reserved field and one of the six opcodes (spec/30_encoding.md R57, R59). -/
def Statement (i : Instr) : Prop :=
  rsvField (encode i) = 0 ∧ (opField (encode i)).toNat ≤ 5 ∧ wellFormedByte (encode i) = i.wellFormed

theorem nop : Statement .nop := by unfold Statement; decide
theorem gen : Statement .gen := by unfold Statement; decide
theorem rast : Statement .rast := by unfold Statement; decide
theorem genrast : Statement .genrast := by unfold Statement; decide
theorem lfsrLoad : Statement .lfsrLoad := by unfold Statement; decide
theorem lfsrNext : Statement .lfsrNext := by unfold Statement; decide

end Sys2Proof.Laws.EncodedFields
end

