-- ==== Sys2Proof/Laws/Step.lean ====
section
/-! SUPPORT. What the host port and one step can do, said once. -/

namespace Sys2Proof.Machine

/-! Where an address leads (spec/20_memory.md R36). -/

theorem locate_wall {a : Address} {x y : Nat} (hx : x ≤ 17) (hy : y ≤ 8) (h : a.toNat = wallAddr x y) :
    locate a = .wall x y := by
  unfold wallAddr at h
  have h1 : (a.toNat - 0x100) % 18 = x := by omega
  have h2 : (a.toNat - 0x100) / 18 = y := by omega
  unfold locate
  simp only [h1, h2]
  split_ifs <;> first | rfl | omega

theorem locate_pix {a : Address} {r c : Nat} (hr : r ≤ 19) (hc : c ≤ 37) (h : a.toNat = pixAddr r c) :
    locate a = .pix r c := by
  unfold pixAddr at h
  have h1 : (a.toNat - 0x400) % 38 = c := by omega
  have h2 : (a.toNat - 0x400) / 38 = r := by omega
  unfold locate
  simp only [h1, h2]
  split_ifs <;> first | rfl | omega

/-- An address that leads to a wall cell is that cell's. -/
theorem locate_eq_wall {a : Address} {x y : Nat} (h : locate a = .wall x y) :
    x ≤ 17 ∧ y ≤ 8 ∧ a.toNat = wallAddr x y := by
  unfold locate at h
  simp only at h
  split_ifs at h with h0 h1 h2 h3 h4 h5 h6
  obtain ⟨rfl, rfl⟩ := Location.wall.inj h
  unfold wallAddr; omega

theorem locate_eq_pix {a : Address} {r c : Nat} (h : locate a = .pix r c) :
    r ≤ 19 ∧ c ≤ 37 ∧ a.toNat = pixAddr r c := by
  unfold locate at h
  simp only at h
  split_ifs at h
  obtain ⟨rfl, rfl⟩ := Location.pix.inj h
  unfold pixAddr; omega

theorem locate_eq_cmd {a : Address} : locate a = .cmd ↔ a = 0x000 := by
  constructor
  · intro h
    unfold locate at h
    simp only at h
    split_ifs at h with h0
    exact BitVec.eq_of_toNat_eq (by simpa using h0)
  · rintro rfl; rfl

theorem locate_eq_status {a : Address} : locate a = .status ↔ a = 0x001 := by
  constructor
  · intro h
    unfold locate at h
    simp only at h
    split_ifs at h with h0 h1
    exact BitVec.eq_of_toNat_eq (by simpa using h1)
  · rintro rfl; rfl

theorem locate_eq_seed {a : Address} : locate a = .seed ↔ a = 0x002 := by
  constructor
  · intro h
    unfold locate at h
    simp only at h
    split_ifs at h with h0 h1 h2
    exact BitVec.eq_of_toNat_eq (by simpa using h2)
  · rintro rfl; rfl

/-! The commands. -/

/-! Each command is its effect behind the BUSY check. -/

theorem exec_nop (s : State) : exec .nop s = whenIdle s (fun s => s) := rfl
theorem exec_gen (s : State) : exec .gen s = whenIdle s startGen := rfl
theorem exec_rast (s : State) : exec .rast s = whenIdle s (fun s => startRaster (setBusy s)) := rfl
theorem exec_genrast (s : State) : exec .genrast s = whenIdle s (fun s => startGen { s with chain := true }) := rfl
theorem exec_lfsrLoad (s : State) : exec .lfsrLoad s = whenIdle s (fun s => loadGenerator s.seed s) := rfl
theorem exec_lfsrNext (s : State) : exec .lfsrNext s = whenIdle s nextDirection := rfl

/-- What issuing a command can do: rejected, or begun. -/
theorem exec_cases {i : Instr} {s t : State} (h : exec i s = .next t) :
    (isBusy s = true ∧ t = raise .busy s) ∨
    (isBusy s = false ∧ i = .nop ∧ t = s) ∨
    (isBusy s = false ∧ i = .gen ∧ t = startGen s) ∨
    (isBusy s = false ∧ i = .rast ∧ t = startRaster (setBusy s)) ∨
    (isBusy s = false ∧ i = .genrast ∧ t = startGen { s with chain := true }) ∨
    (isBusy s = false ∧ i = .lfsrLoad ∧ t = loadGenerator s.seed s) ∨
    (isBusy s = false ∧ i = .lfsrNext ∧ t = nextDirection s) := by
  cases i
  case nop => rw [exec_nop] at h; rcases whenIdle_next.mp h with ⟨hb, ht⟩ | ⟨hb, ht⟩ <;> simp [hb, ht]
  case gen => rw [exec_gen] at h; rcases whenIdle_next.mp h with ⟨hb, ht⟩ | ⟨hb, ht⟩ <;> simp [hb, ht]
  case rast => rw [exec_rast] at h; rcases whenIdle_next.mp h with ⟨hb, ht⟩ | ⟨hb, ht⟩ <;> simp [hb, ht]
  case genrast => rw [exec_genrast] at h; rcases whenIdle_next.mp h with ⟨hb, ht⟩ | ⟨hb, ht⟩ <;> simp [hb, ht]
  case lfsrLoad => rw [exec_lfsrLoad] at h; rcases whenIdle_next.mp h with ⟨hb, ht⟩ | ⟨hb, ht⟩ <;> simp [hb, ht]
  case lfsrNext => rw [exec_lfsrNext] at h; rcases whenIdle_next.mp h with ⟨hb, ht⟩ | ⟨hb, ht⟩ <;> simp [hb, ht]

/-- What a write to CMD can do (R38, R46, spec/43_command_control.md R100). -/
theorem writeCommand_cases {d : Byte} {s t : State} (h : writeCommand d s = .next t) :
    (isBusy s = true ∧ t = raise .busy s) ∨
    (isBusy s = false ∧ (∃ i, decodeCommand d = .ok i ∧ exec i s = .next t)) ∨
    (isBusy s = false ∧ (∃ e, decodeCommand d = .error e) ∧ t = raise .illegal s) := by
  unfold writeCommand at h
  cases hb : isBusy s
  · simp only [hb, Bool.false_eq_true, if_false] at h
    cases hd : decodeCommand d with
    | ok i => rw [hd] at h; exact .inr (.inl ⟨rfl, i, rfl, h⟩)
    | error e => rw [hd] at h; exact .inr (.inr ⟨rfl, ⟨e, rfl⟩, (Host.Outcome.next.inj h).symm⟩)
  · simp only [hb, if_true] at h
    exact .inl ⟨rfl, (Host.Outcome.next.inj h).symm⟩

/-- What a host write can do (spec/20_memory.md R35 to R46). -/
theorem hostWrite_cases {a : Address} {d : Byte} {s t : State} (h : hostWrite a d s = .next t) :
    (a = 0x000 ∧ writeCommand d s = .next t) ∨
    (a = 0x001 ∧ t = clearErrors d s) ∨
    (a = 0x002 ∧ ((isBusy s = true ∧ t = raise .busy s) ∨ (isBusy s = false ∧ t = { s with seed := d }))) ∨
    (∃ x y, x ≤ 17 ∧ y ≤ 8 ∧ a.toNat = wallAddr x y ∧
      ((isBusy s = true ∧ t = raise .busy s) ∨ (isBusy s = false ∧ t = wallWrite x y (d.setWidth 3) s))) ∨
    (a ≠ 0x000 ∧ a ≠ 0x001 ∧ a ≠ 0x002 ∧ (∀ x y, x ≤ 17 → y ≤ 8 → a.toNat ≠ wallAddr x y) ∧ t = s) := by
  unfold hostWrite at h
  have other : (∀ x y, locate a ≠ .wall x y) → ∀ x y, x ≤ 17 → y ≤ 8 → a.toNat ≠ wallAddr x y :=
    fun hw x y hx hy e => hw x y (locate_wall hx hy e)
  cases hl : locate a <;> simp only [hl] at h
  · exact .inl ⟨locate_eq_cmd.mp hl, h⟩
  · exact .inr (.inl ⟨locate_eq_status.mp hl, (Host.Outcome.next.inj h).symm⟩)
  · exact .inr (.inr (.inl ⟨locate_eq_seed.mp hl, whenIdle_next.mp h⟩))
  case wall x y =>
    obtain ⟨hx, hy, ha⟩ := locate_eq_wall hl
    exact .inr (.inr (.inr (.inl ⟨x, y, hx, hy, ha, whenIdle_next.mp h⟩)))
  all_goals
    refine .inr (.inr (.inr (.inr ⟨?_, ?_, ?_, other ?_, (Host.Outcome.next.inj h).symm⟩)))
    · intro e; rw [locate_eq_cmd.mpr e] at hl; cases hl
    · intro e; rw [locate_eq_status.mpr e] at hl; cases hl
    · intro e; rw [locate_eq_seed.mpr e] at hl; cases hl
    · intro x y e; rw [e] at hl; cases hl

/-- What a host read can do (R35, R46). -/
theorem hostRead_cases (a : Address) (s : State) :
    (isBusy s = true ∧ hiddenWhileBusy (locate a) = true ∧ hostRead a s = answerFree s) ∨
    ((isBusy s = false ∨ hiddenWhileBusy (locate a) = false) ∧
      hostRead a s = answer (readValue s (locate a)) s) := by
  unfold hostRead
  cases isBusy s <;> cases hiddenWhileBusy (locate a) <;> simp

/-- A host read changes the model's record of reads alone (R49). -/
theorem hostRead_frame (a : Address) (s : State) :
    hostRead a s = { s with freeReads := (hostRead a s).freeReads, answers := (hostRead a s).answers } := by
  rcases hostRead_cases a s with ⟨_, _, h⟩ | ⟨_, h⟩ <;> rw [h] <;> rfl

/-! One step. -/

/-- What one step can do. -/
theorem step_cases {s t : State} (h : step s = .next t) :
    (s.events = [] ∧ engineStep s = .next t) ∨
    (∃ rest, s.events = .engine :: rest ∧ engineStep (setEvents rest s) = .next t) ∨
    (∃ a rest, s.events = .read a :: rest ∧ t = hostRead a (setEvents rest s)) ∨
    (∃ a d rest, s.events = .write a d :: rest ∧ hostWrite a d (setEvents rest s) = .next t) ∨
    (∃ rest, s.events = .waitIdle :: rest ∧ t = pollEvents (setEvents rest s)) ∨
    (∃ rest, s.events = .reset :: rest ∧ t = resetBlock (setEvents rest s)) := by
  unfold step at h
  split at h
  case h_1 he => exact .inl ⟨he, h⟩
  case h_2 e rest he =>
    cases e with
    | read a => exact .inr (.inr (.inl ⟨a, rest, he, (Host.Outcome.next.inj h).symm⟩))
    | write a d => exact .inr (.inr (.inr (.inl ⟨a, d, rest, he, h⟩)))
    | waitIdle => exact .inr (.inr (.inr (.inr (.inl ⟨rest, he, (Host.Outcome.next.inj h).symm⟩))))
    | engine => exact .inr (.inl ⟨rest, he, h⟩)
    | reset => exact .inr (.inr (.inr (.inr (.inr ⟨rest, he, (Host.Outcome.next.inj h).symm⟩))))

/-- A step with no event pending is a turn of the engine. -/
theorem step_nil {s : State} (h : s.events = []) : step s = engineStep s := by
  unfold step; rw [h]

/-- A step with an event pending handles it. -/
theorem step_cons {s : State} {e : Event} {rest : List Event} (h : s.events = e :: rest) :
    step s = handleEvent e (setEvents rest s) := by
  unfold step; rw [h]

end Sys2Proof.Machine
end

