-- ==== Sys2Proof/Tests/Slice0.lean ====
section
/-! SUPPORT. The model's own tests: well-formedness, decoding, one-step vectors of spec/95_test_vectors.md, and, for every
statement with hypotheses, a witness that meets them (`witness_<statement>`). -/

open Sys2Proof Sys2Proof.Machine

namespace Sys2Proof.Tests

/-! ## Well-formedness: an ill-formed byte for each check (spec/30_encoding.md R57, R60) -/

theorem test_wellFormed_refuses_reserved_field : rsvOk 0x10 = false ∧ opOk 0x10 = true ∧ wellFormedByte 0x10 = false := by
  decide

theorem test_wellFormed_refuses_reserved_opcode : rsvOk 0x06 = true ∧ opOk 0x06 = false ∧ wellFormedByte 0x06 = false := by
  decide

theorem test_wellFormed_accepts_commands : ∀ d : Byte, wellFormedByte d = true ↔ d.toNat ≤ 5 := by decide

/-! ## Decoding: RSV = 0000 in bits 7:4, OP in bits 3:0 (R57, R59) -/

theorem test_decode_nop : decodeCommand (0b0000#4 ++ 0b0000#4) = .ok .nop := by decide
theorem test_decode_gen : decodeCommand (0b0000#4 ++ 0b0001#4) = .ok .gen := by decide
theorem test_decode_rast : decodeCommand (0b0000#4 ++ 0b0010#4) = .ok .rast := by decide
theorem test_decode_genrast : decodeCommand (0b0000#4 ++ 0b0011#4) = .ok .genrast := by decide
theorem test_decode_lfsrLoad : decodeCommand (0b0000#4 ++ 0b0100#4) = .ok .lfsrLoad := by decide
theorem test_decode_lfsrNext : decodeCommand (0b0000#4 ++ 0b0101#4) = .ok .lfsrNext := by decide

theorem test_decode_reserved : decodeCommand 0x06 = .error .reservedOpcode ∧ decodeCommand 0x0F = .error .reservedOpcode ∧
    decodeCommand 0x10 = .error .reservedField ∧ decodeCommand 0x11 = .error .reservedField ∧
    decodeCommand 0xFF = .error .reservedField := by decide

/-- The six rows are told apart: no byte matches two of them. -/
theorem test_opcodeTable_disjoint :
    opcodeTable.Pairwise (fun p q => ∀ d : Byte, ¬ (p.accepts d = true ∧ q.accepts d = true)) := by decide

theorem test_decodeTableWord : decodeTableWord 8 0x05 = some .lfsrNext ∧ decodeTableWord 8 0x06 = none ∧
    decodeTableWord 8 0x105 = none ∧ decodeTableWord 16 0x05 = none := by decide

/-! ## States for the tests -/

/-- An idle block whose next event is `e`. -/
def idleWith (e : Event) : State := setEvents [e] State.reset

/-- A block with BUSY = 1 in GEN_SCAN whose next event is `e`. -/
def busyWith (e : Event) : State := setEvents [e] { State.reset with status := 0x01, fsm := .genScan, cx := 16 }

/-- A write of the command byte `d`. -/
abbrev cmd (d : Byte) : Event := .write 0x000 d

/-- A walk at (x, y) with the generator at (sr, pb), over the listed cells. -/
def walkAt (x y : Nat) (sr : Byte) (pb : BitVec 1) (cells : List (Nat × Nat × WallCell)) : State :=
  cells.foldr (fun c s => wallWrite c.1 c.2.1 c.2.2 s)
    { State.reset with status := 0x01, fsm := .genWalk, sr := sr, pb := pb, x := x, y := y, cx := x, cy := y }

/-- The state after a step, or the state before it where the step stops. -/
def after (s : State) : State :=
  match step s with
  | .next t => t
  | .fault _ => s
  | .refused _ => s

/-! ## Commands (spec/95_test_vectors.md section 2.3, section 6; spec/43_command_control.md R98, R100) -/

theorem test_nop_idle : step (idleWith (cmd 0x00)) = .next State.reset := by rfl
theorem test_nop_busy : (after (busyWith (cmd 0x00))).status = 0x05 := by decide

theorem test_lfsrLoad : step { idleWith (cmd 0x04) with seed := 0x90, dir := 2 } =
    .next { State.reset with seed := 0x90, dir := 2, sr := 0x90, pb := 0 } := by rfl
theorem test_lfsrLoad_low_bit : (after { idleWith (cmd 0x04) with seed := 0x81 }).pb = 1 := by decide

theorem test_lfsrNext : step { idleWith (cmd 0x05) with sr := 0x90 } =
    .next { State.reset with sr := 0x21, pb := 1, dir := 1 } := by rfl
theorem test_lfsrNext_uses_old_pb : step { idleWith (cmd 0x05) with sr := 0x7F, pb := 1 } =
    .next { State.reset with sr := 0xFE, pb := 0, dir := 2 } := by rfl

theorem test_gen_issue : let t := after { idleWith (cmd 0x01) with seed := 0x81, dir := 2 }
    t.status = 0x01 ∧ t.fsm = .genScan ∧ t.sr = 0x81 ∧ t.pb = 1 ∧ t.dir = 2 ∧ t.cx = 16 ∧ t.cy = 0 ∧ t.chain = false := by
  decide

theorem test_genrast_issue : let t := after { idleWith (cmd 0x03) with seed := 0x01 }
    t.status = 0x01 ∧ t.chain = true ∧ t.fsm = .genScan ∧ t.sr = 0x01 := by decide
theorem test_genrast_busy : (after (busyWith (cmd 0x03))).chain = false := by decide

theorem test_rast_issue : step (idleWith (cmd 0x02)) = .next { State.reset with status := 0x01, fsm := .rastRun } := by rfl
theorem test_rast_busy : (after (busyWith (cmd 0x02))).fsm = .genScan := by decide

theorem test_reserved_byte : step (idleWith (cmd 0x10)) = .next { State.reset with status := 0x02 } := by rfl
theorem test_withFetchWord : step (State.reset.withFetchWord 8 0x05) = .next { State.reset with sr := 1, pb := 1, dir := 1 } := by
  rfl

/-! ## The engine (spec/95_test_vectors.md section 3.1, rows 5, 9, 11 and 13; spec/42_layout_rasterizer.md R93) -/

theorem test_walk_up_blocked : let t := after (walkAt 5 3 0x10 0 [(5, 3, 3)])
    wallRead t 5 3 = 3 ∧ t.x = 5 ∧ t.y = 3 ∧ t.retry = 1 ∧ t.dir = 0 ∧ t.fsm = .genWalk := by decide
theorem test_walk_right_into_visited : let t := after (walkAt 5 3 0x00 0 [(5, 3, 1), (6, 3, 1)])
    wallRead t 6 3 = 5 ∧ t.x = 6 ∧ t.y = 3 ∧ t.fsm = .genScan := by decide
theorem test_walk_left_leaves_grid : let t := after (walkAt 0 2 0x00 1 [(0, 2, 1)])
    wallRead t 0 2 = 5 ∧ t.x = -1 ∧ t.y = 2 ∧ t.fsm = .genScan ∧ t.cy = 3 := by decide
theorem test_walk_right_into_border : let t := after (walkAt 16 5 0x00 0 [(16, 5, 1), (17, 5, 1)])
    wallRead t 17 5 = 5 ∧ wallRead t 16 5 = 1 ∧ t.x = 17 ∧ t.fsm = .genScan := by decide
theorem test_block_forced_corner : blockIndex (wallWrite 17 8 1 State.reset) 18 9 = 3 := by decide

/-! ## Host syntax (spec/30_encoding.md R64) -/

theorem test_pseudo_genSeed : expandPseudo (.genSeed 7) = [.write 0x002 7, .write 0x000 0x01] := by decide
theorem test_pseudo_clrErr : expandPseudo .clrErr = [.write 0x001 0x0E] := by decide
theorem test_addresses : addrWall 17 8 = 0x1A1 ∧ addrPix 19 37 = 0x6F7 ∧ addrWall 0 0 = 0x100 ∧ addrPix 0 0 = 0x400 := by
  decide

/-! ## Witnesses: states and operands that meet the hypotheses of each statement -/

theorem witness_DecodeMatchesTheOpcodeMap : 6 ≤ (0x06 : Byte).toNat ∧ 6 ≤ (0xFF : Byte).toNat := by decide

theorem witness_DecodeAndEncodeAgree : Instr.gen.wellFormed = true ∧ decodeCommand 0x00 = .ok .nop ∧
    decodeCommand 0x05 = .ok .lfsrNext := by decide

theorem witness_StepRunsTheDecodedCommand :
    ((idleWith (cmd 0x05)).events = [.write 0x000 0x05] ∧ decodeCommand 0x05 = .ok .lfsrNext) ∧
    ((idleWith (cmd 0x06)).events = [.write 0x000 0x06] ∧ decodeCommand 0x06 = .error .reservedOpcode) ∧
    (idleWith (.read 0x000)).events = [.read 0x000] ∧ decodeTableWord 8 5 = some .lfsrNext := by decide

theorem witness_NopHasNoEffect : isBusy State.reset = false ∧ isBusy (busyWith .engine) = true := by decide

theorem witness_LfsrLoadSeedsTheGenerator : isBusy State.reset = false ∧ isBusy (busyWith .engine) = true := by decide

theorem witness_LfsrNextDrawsOneCode :
    (1 : BitVec 1) = ~~~(State.reset.sr.extractLsb' 7 1 ^^^ State.reset.sr.extractLsb' 4 1) ∧
    isBusy State.reset = false ∧
    (1 : BitVec 1) = ~~~((busyWith .engine).sr.extractLsb' 7 1 ^^^ (busyWith .engine).sr.extractLsb' 4 1) ∧
    isBusy (busyWith .engine) = true := by decide

theorem witness_GenAndGenrastIssue : isBusy State.reset = false ∧
    ((Instr.gen = .gen ∧ false = State.reset.chain) ∨ (Instr.gen = .genrast ∧ false = true)) ∧
    ((Instr.genrast = .gen ∧ true = State.reset.chain) ∨ (Instr.genrast = .genrast ∧ true = true)) := by decide

theorem witness_GenAndGenrastIssue_ranges : (0 ≤ 17 ∧ 0 ≤ 8) ∧ (17 ≤ 17 ∧ 8 ≤ 8) ∧ (0xFF < 0x100 ∨ 0x1A1 < 0xFF) ∧
    (0x1A2 < 0x100 ∨ 0x1A1 < 0x1A2) := by decide

theorem witness_RastIssue : isBusy State.reset = false := by decide

theorem witness_CommandsAreRejectedWhileBusy : isBusy (busyWith (cmd 0x01)) = true ∧
    (busyWith (cmd 0x01)).events = [.write 0x000 0x01] := by decide

theorem witness_ReservedBytesRaiseErrIllegal :
    ((idleWith (cmd 0x06)).events = [.write 0x000 0x06] ∧ 0x06 ≤ (0x06 : Byte).toNat ∧
      isBusy (idleWith (cmd 0x06)) = false) ∧
    ((busyWith (cmd 0xFF)).events = [.write 0x000 0xFF] ∧ 0x06 ≤ (0xFF : Byte).toNat ∧
      isBusy (busyWith (cmd 0xFF)) = true) := by decide

/-- Rejected writes to CMD, to SEED, and to the first and last wall cells. -/
theorem witness_ErrBusyRisesExactlyOnRejectedWrites :
    ∀ a ∈ [(0x000 : Address), 0x002, 0x100, 0x1A1],
      isBusy (busyWith (.write a 1)) = true ∧ hasError .busy (busyWith (.write a 1)) = false ∧
      (busyWith (.write a 1)).events = [.write a 1] ∧
      step (busyWith (.write a 1)) = .next { busyWith (.write a 1) with events := [], status := 0x05 } ∧
      (a = 0x000 ∨ a = 0x002 ∨ (0x100 ≤ a.toNat ∧ a.toNat ≤ 0x1A1)) := by
  simp only [List.mem_cons, List.not_mem_nil, or_false, forall_eq_or_imp, forall_eq]
  exact ⟨⟨rfl, rfl, rfl, rfl, by decide⟩, ⟨rfl, rfl, rfl, rfl, by decide⟩, ⟨rfl, rfl, rfl, rfl, by decide⟩,
    ⟨rfl, rfl, rfl, rfl, by decide⟩⟩

theorem witness_ErrIllegalRisesExactlyOnReservedBytes :
    step (idleWith (cmd 0x06)) = .next { State.reset with status := 0x02 } ∧
    hasError .illegal (idleWith (cmd 0x06)) = false := ⟨rfl, rfl⟩

theorem witness_ErrCapRisesExactlyAtTheCap : step State.reset = .next State.reset ∧
    hasError .cap State.reset = false := ⟨rfl, rfl⟩

/-- A blocked draw that is the last one the cap allows: ERR_CAP rises. -/
theorem witness_ErrCapRisesExactlyAtTheCap_rises :
    let s := { walkAt 5 3 0x10 0 [(5, 3, 3)] with retry := Config.retryCapAboveLeast + 7 }
    hasError .cap s = false ∧ step s = .next (walkPass s) ∧ s.retry + 1 = Config.retryCap := by
  refine ⟨rfl, rfl, ?_⟩
  show Config.retryCapAboveLeast + 7 + 1 = 8 + Config.retryCapAboveLeast
  omega

theorem witness_ErrorBitsAreSticky :
    let s := { idleWith (.write 0x001 0x02) with status := 0x02 }
    step s = .next State.reset ∧ hasError .illegal s = true ∧ hasError .illegal State.reset = false ∧
    exec .nop State.reset = .next State.reset := ⟨rfl, rfl, rfl, rfl⟩

theorem witness_StatusReadsAndClears : (busyWith (.read 0x001)).events = [.read 0x001] ∧
    (idleWith (.write 0x001 0xFF)).events = [.write 0x001 0xFF] := by decide

theorem witness_WallAndPixReads :
    (isBusy (idleWith (.read 0x100)) = false ∧ (idleWith (.read 0x100)).events = [.read 0x100] ∧
      (0x100 : Address).toNat = 0x100 + 18 * 0 + 0) ∧
    (isBusy (idleWith (.read 0x1A1)) = false ∧ (0x1A1 : Address).toNat = 0x100 + 18 * 8 + 17) ∧
    (isBusy (idleWith (.read 0x400)) = false ∧ (0x400 : Address).toNat = 0x400 + 38 * 0 + 0) ∧
    (isBusy (idleWith (.read 0x6F7)) = false ∧ (idleWith (.read 0x6F7)).events = [.read 0x6F7] ∧
      (0x6F7 : Address).toNat = 0x400 + 38 * 19 + 37) := by decide

theorem witness_WallWriteStoresThreeBits :
    (isBusy (idleWith (.write 0x100 0xFF)) = false ∧ (idleWith (.write 0x100 0xFF)).events = [.write 0x100 0xFF] ∧
      (0x100 : Address).toNat = 0x100 + 18 * 0 + 0) ∧
    (isBusy (idleWith (.write 0x1A1 0x05)) = false ∧ (idleWith (.write 0x1A1 0x05)).events = [.write 0x1A1 0x05] ∧
      (0x1A1 : Address).toNat = 0x100 + 18 * 8 + 17) := by decide

theorem witness_UnmappedAddresses : ∀ a ∈ [(0x006 : Address), 0x0FF, 0x1A2, 0x3FF, 0x6F8, 0xFFF],
    ((0x006 ≤ a.toNat ∧ a.toNat ≤ 0x0FF) ∨ (0x1A2 ≤ a.toNat ∧ a.toNat ≤ 0x3FF) ∨ 0x6F8 ≤ a.toNat) ∧
    (idleWith (.read a)).events = [.read a] ∧ (busyWith (.write a 1)).events = [.write a 1] := by decide

theorem witness_SeedAccess :
    (isBusy (idleWith (.read 0x002)) = false ∧ (idleWith (.read 0x002)).events = [.read 0x002]) ∧
    (isBusy (idleWith (.write 0x002 7)) = false ∧ (idleWith (.write 0x002 7)).events = [.write 0x002 7]) ∧
    (isBusy (busyWith (.read 0x002)) = true ∧ (busyWith (.read 0x002)).events = [.read 0x002]) ∧
    (isBusy (busyWith (.write 0x002 7)) = true ∧ (busyWith (.write 0x002 7)).events = [.write 0x002 7]) := by decide

theorem witness_GeneratorRegistersAtThePort : ∀ a ∈ [(0x003 : Address), 0x004, 0x005],
    isBusy (idleWith (.read a)) = false ∧ (idleWith (.read a)).events = [.read a] ∧
    (busyWith (.write a 1)).events = [.write a 1] ∧ (a = 0x003 ∨ a = 0x004 ∨ a = 0x005) := by decide

theorem witness_PixWritesAreIgnored : ∀ a ∈ [(0x400 : Address), 0x6F7],
    (busyWith (.write a 1)).events = [.write a 1] ∧ 0x400 ≤ a.toNat ∧ a.toNat ≤ 0x6F7 := by decide

theorem witness_HiddenReadsWhileBusy : ∀ a ∈ [(0x002 : Address), 0x005, 0x100, 0x1A1, 0x400, 0x6F7],
    isBusy (busyWith (.read a)) = true ∧ (busyWith (.read a)).events = [.read a] ∧
    ((0x002 ≤ a.toNat ∧ a.toNat ≤ 0x005) ∨ (0x100 ≤ a.toNat ∧ a.toNat ≤ 0x1A1) ∨
      (0x400 ≤ a.toNat ∧ a.toNat ≤ 0x6F7)) := by decide

theorem witness_HostCannotDisturbARunningCommand :
    isBusy (busyWith (cmd 0x01)) = true ∧ (busyWith (cmd 0x01)).events = [cmd 0x01] ∧
    cmd 0x01 ≠ .engine ∧ cmd 0x01 ≠ .reset ∧
    step (busyWith (cmd 0x01)) = .next { busyWith (cmd 0x01) with events := [], status := 0x05 } :=
  ⟨rfl, rfl, by decide, by decide, rfl⟩

theorem witness_EventsAreTakenInOrder :
    (step State.reset = .next State.reset ∧ State.reset.events = []) ∧
    (step (idleWith (cmd 0x00)) = .next State.reset ∧ (idleWith (cmd 0x00)).events = [cmd 0x00] ∧
      cmd 0x00 ≠ .waitIdle) ∧
    (step (idleWith .waitIdle) = .next (idleWith (.read 0x001)) ∧ (idleWith .waitIdle).events = [.waitIdle]) :=
  ⟨⟨rfl, rfl⟩, ⟨rfl, rfl, by decide⟩, ⟨rfl, rfl⟩⟩

theorem witness_EngineEventsAreTurnsOfTheEngine : (busyWith .engine).events = [.engine] := by decide

theorem witness_SeedChangesOnlyByTheHost :
    step (idleWith (.write 0x002 7)) = .next { State.reset with seed := 7 } ∧ (7 : Byte) ≠ State.reset.seed :=
  ⟨rfl, by decide⟩

theorem witness_GeneratorChangesOnlyBySeedingOrDrawing :
    step (idleWith (cmd 0x05)) = .next { State.reset with sr := 1, pb := 1, dir := 1 } ∧
    step State.reset = .next State.reset ∧
    step { idleWith (cmd 0x04) with seed := 0x90 } = .next { State.reset with seed := 0x90, sr := 0x90 } :=
  ⟨rfl, rfl, rfl⟩

theorem witness_ResetPutsTheRegistersAtTheirValues :
    (idleWith .reset).events = [.reset] ∧ step (idleWith .reset) = .next { State.reset with epoch := 1 } := ⟨rfl, rfl⟩

theorem witness_ResetLeavesTheArraysFree : (idleWith .reset).events = [.reset] := by decide

theorem witness_RunsOfOneCodeAreBounded :
    State.reset.sr ≠ 0xFF ∧ State.reset.pb = State.reset.sr.extractLsb' 0 1 ∧
    (let s := { State.reset with sr := 0xFF, pb := 1 }; s.sr = 0xFF ∧ s.pb = 1) := by decide

theorem witness_PoleTest : ¬ (0 ≤ (-1 : Int) ∧ (-1 : Int) ≤ 16 ∧ 0 ≤ (0 : Int) ∧ (0 : Int) ≤ 7) ∧
    ¬ (0 ≤ (17 : Int) ∧ (17 : Int) ≤ 16 ∧ 0 ≤ (7 : Int) ∧ (7 : Int) ≤ 7) := by decide

/-- A scan at the first candidate, unvisited in one state and visited in the other. -/
theorem witness_ScanOrder : ∀ v ∈ [(0 : WallCell), 1],
    let s := wallWrite 16 0 v { State.reset with status := 0x01, fsm := .genScan, cx := 16 }
    s.cx = 16 ∧ s.cy = 0 ∧ s.scanDone = false ∧ s.events = [] ∧ isBusy s = true ∧ s.fsm = .genScan ∧
    isPole s s.cx s.cy = v.getLsbD 0 := by decide

/-- A visited candidate at the end of a column and the last candidate of all, where the scan advances differently. -/
theorem witness_ScanOrder_ends : ∀ c ∈ [16, 0],
    let s := wallWrite c 7 1 { State.reset with status := 0x01, fsm := .genScan, cx := c, cy := 7 }
    s.events = [] ∧ isBusy s = true ∧ s.fsm = .genScan ∧ s.scanDone = false ∧ isPole s s.cx s.cy = true := by decide

theorem witness_ScanOrder_positions : (0 < 136) ∧ (135 < 136) := by decide

/-- A draw of Up that is blocked, at the far corner of the region. -/
theorem witness_BlockedDraw : let s := walkAt 16 7 0x10 0 [(16, 7, 3)]
    s.events = [] ∧ isBusy s = true ∧ s.fsm = .genWalk ∧ s.x = (16 : Nat) ∧ s.y = (7 : Nat) ∧
    (0 : BitVec 1) = ~~~(s.sr.extractLsb' 7 1 ^^^ s.sr.extractLsb' 4 1) ∧
    (wallRead s (edgeOwner 16 7 (directionOf (s.pb ++ (0 : BitVec 1)))).1
      (edgeOwner 16 7 (directionOf (s.pb ++ (0 : BitVec 1)))).2).getLsbD
      (edgeBit (directionOf (s.pb ++ (0 : BitVec 1)))) = true := by decide

theorem witness_BlockedDraw_counts : (0 + 1 ≠ Config.retryCap) ∧
    (Config.retryCapAboveLeast + 7 + 1 = Config.retryCap) := by
  have := retryCap_ge
  refine ⟨by omega, ?_⟩
  show Config.retryCapAboveLeast + 7 + 1 = 8 + Config.retryCapAboveLeast
  omega

/-- Open draws of Right at (16, 7) and of Left at (0, 0), both onto poles, and of Right onto an unvisited cell. -/
theorem witness_OpenDraw_right : let s := walkAt 16 7 0x00 0 [(16, 7, 1), (17, 7, 1)]
    s.events = [] ∧ isBusy s = true ∧ s.fsm = .genWalk ∧ s.x = (16 : Nat) ∧ s.y = (7 : Nat) ∧
    (1 : BitVec 1) = ~~~(s.sr.extractLsb' 7 1 ^^^ s.sr.extractLsb' 4 1) ∧ codeOf .right = s.pb ++ (1 : BitVec 1) ∧
    (wallRead s (edgeOwner 16 7 .right).1 (edgeOwner 16 7 .right).2).getLsbD (edgeBit .right) = false ∧
    isPole s 17 7 = true := by decide

theorem witness_OpenDraw_left : let s := walkAt 0 0 0x00 1 [(0, 0, 0)]
    s.events = [] ∧ isBusy s = true ∧ s.fsm = .genWalk ∧ s.x = (0 : Nat) ∧ s.y = (0 : Nat) ∧
    (1 : BitVec 1) = ~~~(s.sr.extractLsb' 7 1 ^^^ s.sr.extractLsb' 4 1) ∧ codeOf .left = s.pb ++ (1 : BitVec 1) ∧
    (wallRead s (edgeOwner 0 0 .left).1 (edgeOwner 0 0 .left).2).getLsbD (edgeBit .left) = false ∧
    isPole s (-1) 0 = true := by decide

theorem witness_OpenDraw_goes_on : let s := walkAt 5 3 0x00 0 [(5, 3, 1), (6, 3, 0)]
    s.events = [] ∧ isBusy s = true ∧ s.fsm = .genWalk ∧ s.x = (5 : Nat) ∧ s.y = (3 : Nat) ∧
    codeOf .right = s.pb ++ (1 : BitVec 1) ∧
    (wallRead s (edgeOwner 5 3 .right).1 (edgeOwner 5 3 .right).2).getLsbD (edgeBit .right) = false ∧
    isPole s 6 3 = false := by decide

theorem witness_ScanEndFinishesGen : ∀ c ∈ [false, true],
    let s := { State.reset with status := 0x01, fsm := .genScan, scanDone := true, chain := c }
    s.events = [] ∧ isBusy s = true ∧ s.fsm = .genScan ∧ s.scanDone = true ∧ s.chain = c := by decide

theorem witness_BlockIndexAndPatterns : (4 ≤ 4) ∧ (1 ≤ 1) ∧ (1 ≤ 18) ∧ (17 ≤ 17 ∧ 8 ≤ 8) ∧ (0 ≤ 17 ∧ 0 ≤ 8) := by decide

/-- RAST before the first block, before the last one, and with all rows drawn. -/
theorem witness_RasterTurn : ∀ b ∈ [(0, 0), (18, 9), (0, 10)],
    let s := { State.reset with status := 0x01, fsm := .rastRun, blockX := b.1, blockY := b.2 }
    s.events = [] ∧ isBusy s = true ∧ s.fsm = .rastRun ∧ (s.blockX ≤ 18 ∧ s.blockY ≤ 9 ∨ s.blockY = 10) := by decide

theorem witness_RastDrawsThePicture : isBusy State.reset = false ∧ State.reset.events = [] := by decide

theorem witness_RastDrawsTheFrame : isBusy State.reset = false ∧ State.reset.events = [] := by decide

/-- Two states whose cells differ in the visited bit alone. -/
theorem witness_PixIsAFunctionOfTheEdgeBits :
    let s := wallWrite 3 4 6 State.reset
    let u := wallWrite 3 4 7 State.reset
    isBusy s = false ∧ s.events = [] ∧ isBusy u = false ∧ u.events = [] ∧
    ∀ x y, x ≤ 17 → y ≤ 8 → (wallRead u x y).extractLsb' 1 2 = (wallRead s x y).extractLsb' 1 2 := by
  refine ⟨rfl, rfl, rfl, rfl, fun x y hx _ => ?_⟩
  by_cases h : x = 3 ∧ y = 4
  · obtain ⟨rfl, rfl⟩ := h
    rw [wallRead_wallWrite_same, wallRead_wallWrite_same]; rfl
  · rw [wallRead_wallWrite_other _ _ (by omega) hx h, wallRead_wallWrite_other _ _ (by omega) hx h]

/-! ## Witnesses of the invariants: an idle block, a GEN just issued, a RAST just issued -/

theorem idle_stateInv (es : List Event) (seed : Byte) : StateInv { State.reset with events := es, seed := seed } where
  mem_wf := by rfl
  status_reserved := by show (0x00 : Byte) &&& 0xF0 = 0; decide
  busy_iff := by simp [isBusy, State.reset]
  chain_idle := fun _ => rfl
  pb_eq := by rfl
  cursor := by show (-1 : Int) ≤ 0 ∧ (0 : Int) ≤ 17 ∧ (-1 : Int) ≤ 0 ∧ (0 : Int) ≤ 8; decide
  candidate := by show 0 ≤ 16 ∧ 0 ≤ 7; decide
  retry_le := Nat.zero_le _
  walking := fun h => by cases h
  drawing := fun h => by cases h

theorem gen_stateInv : StateInv (startGen State.reset) where
  mem_wf := by rw [startGen_mem]; exact initWall_wf (by rfl)
  status_reserved := by rw [startGen_frame]; rfl
  busy_iff := by rw [startGen_frame]; simp [isBusy, State.reset]
  chain_idle := by rw [startGen_frame]; exact fun _ => rfl
  pb_eq := by rw [startGen_frame]
  cursor := by rw [startGen_frame]; decide
  candidate := by rw [startGen_frame]; decide
  retry_le := by rw [startGen_frame]; exact Nat.zero_le _
  walking := by rw [startGen_frame]; exact fun h => by cases h
  drawing := by rw [startGen_frame]; exact fun h => by cases h

theorem rast_stateInv : StateInv { State.reset with status := 0x01, fsm := .rastRun } where
  mem_wf := by rfl
  status_reserved := by rfl
  busy_iff := by simp [isBusy]
  chain_idle := fun h => by cases h
  pb_eq := by rfl
  cursor := by decide
  candidate := by decide
  retry_le := Nat.zero_le _
  walking := fun h => by cases h
  drawing := fun _ => by decide

/-- The cells of a GEN just issued (spec/41_maze_carver.md R74). -/
theorem wallRead_startGen {x y : Nat} (hx : x ≤ 17) (hy : y ≤ 8) : wallRead (startGen State.reset) x y = initCell x y := by
  rw [← wallRead_initWall (loadGenerator State.reset.seed (setBusy State.reset)) hx hy]
  exact wallRead_congr (startGen_mem _) (by rw [startGen_frame, initWall_frame]; rfl) x y

theorem test_gen_fills_wall : let t := startGen State.reset
    wallRead t 16 7 = 0 ∧ wallRead t 17 0 = 1 ∧ wallRead t 0 8 = 1 ∧ wallRead t 17 8 = 1 := by
  simp [wallRead_startGen, initCell]

theorem gen_coverInv : CoverInv (startGen State.reset) where
  border := fun _ x y hx hy h => by simp [visited, wallRead_startGen hx hy, initCell, h]
  scanned := fun _ x y hx hy h => by
    rw [scannedBefore, startGen_frame] at h
    rcases h with h | h | h
    · cases h
    · exact absurd h (by simp only; omega)
    · exact absurd h.2 (Nat.not_lt_zero _)
  current := fun h => by rw [startGen_frame] at h; cases h
  bottom_row := fun _ x hx => by simp [wallRead_startGen hx (Nat.le_refl 8), initCell]
  right_column := fun _ y hy => by simp [wallRead_startGen (Nat.le_refl 17) hy, initCell]

theorem gen_edgeInv : EdgeInv (startGen State.reset) where
  unvisited := fun _ x y hx hy _ _ d => by
    have ho := edgeOwner_inGrid d hx hy
    rw [isBlocked_eq _ d hx hy, wallRead_startGen ho.1 ho.2]
    unfold initCell
    cases d <;> split_ifs <;> rfl
  one_blocked := fun h => by rw [startGen_frame] at h; cases h

/-- BUSY rises with a command, stays while it runs, and falls with reset. -/
theorem witness_BusyRisesAndFalls :
    (StateInv (idleWith (cmd 0x02)) ∧ step (idleWith (cmd 0x02)) = .next { State.reset with status := 0x01, fsm := .rastRun } ∧
      isBusy (idleWith (cmd 0x02)) = false) ∧
    (StateInv { State.reset with status := 0x01, fsm := .rastRun } ∧
      isBusy { State.reset with status := 0x01, fsm := .rastRun } = true ∧
      step { State.reset with status := 0x01, fsm := .rastRun } =
        .next (blockDrawn { State.reset with status := 0x01, fsm := .rastRun })) :=
  ⟨⟨idle_stateInv _ _, rfl, rfl⟩, ⟨rast_stateInv, rfl, rfl⟩⟩

/-- A turn of RAST draws block (0, 0): its bottom-right pixel is filled, whatever it held. -/
theorem witness_PixChangesOnlyByRast :
    let s := pixWrite 1 1 0 { State.reset with status := 0x01, fsm := .rastRun }
    StateInv s ∧ 1 ≤ 19 ∧ 1 ≤ 37 ∧ step s = .next (blockDrawn s) ∧ pixRead (blockDrawn s) 1 1 ≠ pixRead s 1 1 := by
  refine ⟨?_, by decide, by decide, rfl, by decide⟩
  have h := rast_stateInv
  exact { h with mem_wf := pixWrite_wf 0 (by decide) (by decide) h.mem_wf }

theorem witness_EveryStepKeepsTheInvariant :
    StateInv (startGen State.reset) ∧ step (startGen State.reset) = .next (scanStep (startGen State.reset)) := by
  refine ⟨gen_stateInv, ?_⟩
  rw [startGen_frame]; rfl

theorem witness_NoStepStops : StateInv (startGen State.reset) := gen_stateInv

theorem witness_EveryStepKeepsTheCoverage : StateInv (startGen State.reset) ∧ CoverInv (startGen State.reset) ∧
    inGen (startGen State.reset) ∧ step (startGen State.reset) = .next (scanStep (startGen State.reset)) :=
  ⟨gen_stateInv, gen_coverInv, .inl (by rw [startGen_frame]), witness_EveryStepKeepsTheInvariant.2⟩

theorem witness_AtMostOneDirectionIsBlocked : StateInv (startGen State.reset) ∧ EdgeInv (startGen State.reset) ∧
    inGen (startGen State.reset) ∧ step (startGen State.reset) = .next (scanStep (startGen State.reset)) :=
  ⟨gen_stateInv, gen_edgeInv, .inl (by rw [startGen_frame]), witness_EveryStepKeepsTheInvariant.2⟩

/-- A walk at (16, 0) over the grid of `g`, the cell's top edge carved, that has drawn one code and was blocked. -/
def retryingOn (g : State) : State :=
  { wallWrite 16 0 3 g with fsm := .genWalk, x := 16, y := 0, retry := 1 }

/-- Such a walk in a GEN just issued with SEED = 0; the code in DIR is Up. -/
def retrying : State := retryingOn (startGen State.reset)

theorem wallRead_retryingOn (g : State) (x y : Nat) : wallRead (retryingOn g) x y = wallRead (wallWrite 16 0 3 g) x y :=
  wallRead_congr rfl rfl x y

theorem wallRead_retrying {x y : Nat} (hx : x ≤ 17) (hy : y ≤ 8) :
    wallRead retrying x y = if x = 16 ∧ y = 0 then 3 else initCell x y := by
  rw [retrying, wallRead_retryingOn]
  by_cases h : x = 16 ∧ y = 0
  · rw [if_pos h, h.1, h.2, wallRead_wallWrite_same]
  · rw [wallRead_wallWrite_other _ _ (by omega) hx h, wallRead_startGen hx hy, if_neg h]

theorem initCell_edges (x y : Nat) (d : Direction) : (initCell x y).getLsbD (edgeBit d) = false := by
  unfold initCell
  cases d <;> split_ifs <;> rfl

/-- Only Up at (16, 0) is blocked in that state. -/
theorem isBlocked_retrying {x y : Nat} {d : Direction} (hx : x ≤ 16) (hy : y ≤ 7)
    (h : isBlocked retrying x y d = true) : x = 16 ∧ y = 0 ∧ d = .up := by
  have ho := edgeOwner_inGrid d hx hy
  rw [isBlocked_eq _ d hx hy, wallRead_retrying ho.1 ho.2] at h
  split_ifs at h with hc
  · cases d <;> simp [edgeOwner, edgeBit] at hc h ⊢
    omega
  · rw [initCell_edges] at h; cases h

theorem retryingOn_stateInv {g : State} (h : StateInv g) (hb : isBusy g = true) (hd : g.scanDone = false) :
    StateInv (retryingOn g) where
  mem_wf := wallWrite_wf 3 (by decide) (by decide) h.mem_wf
  status_reserved := h.status_reserved
  busy_iff := ⟨fun _ => by simp [retryingOn], fun _ => hb⟩
  chain_idle := fun hf => by cases hf
  pb_eq := h.pb_eq
  cursor := by simp [retryingOn]
  candidate := h.candidate
  retry_le := by have := retryCap_ge; simp only [retryingOn]; omega
  walking := fun _ => ⟨by simp [retryingOn, inRegion], by have := retryCap_ge; simp only [retryingOn]; omega, hd⟩
  drawing := fun hf => by cases hf

theorem gen_busy : isBusy (startGen State.reset) = true := by rw [startGen_frame]; rfl

theorem retrying_stateInv : StateInv retrying :=
  retryingOn_stateInv gen_stateInv gen_busy (by rw [startGen_frame])

theorem retrying_edgeInv : EdgeInv retrying where
  unvisited := fun _ x y hx hy hv _ d => by
    rw [← Bool.not_eq_true]
    intro h
    obtain ⟨rfl, rfl, -⟩ := isBlocked_retrying hx hy h
    rw [visited, wallRead_retrying (by omega) (by omega)] at hv
    exact absurd hv (by decide)
  one_blocked := fun _ d d' h h' =>
    (isBlocked_retrying (Nat.le_refl 16) (Nat.zero_le 7) h).2.2.trans
      (isBlocked_retrying (Nat.le_refl 16) (Nat.zero_le 7) h').2.2.symm

theorem retrying_up_blocked : isBlocked retrying 16 0 .up = true := by
  rw [isBlocked_eq _ _ (by decide) (by decide), edgeOwner, wallRead_retrying (by decide) (by decide)]; rfl

theorem retryingOn_retryInv {g : State} (hs : g.sr = 0) (hd : g.dir = 0)
    (hb : isBlocked (retryingOn g) 16 0 .up = true) : RetryInv (retryingOn g) where
  blocked_run := fun _ _ => by
    refine ⟨by simp [retryingOn], ?_, fun j hj => ?_⟩
    · rw [show (retryingOn g).dir = 0 from hd]; exact hb
    · have : j = 0 := by simp only [retryingOn] at hj; omega
      rw [this, show (retryingOn g).dir = 0 from hd, show (retryingOn g).sr = 0 from hs]; rfl
  left_open := fun _ h => by rw [show (retryingOn g).sr = 0 from hs] at h; exact absurd h (by decide)

theorem retrying_retryInv : RetryInv retrying :=
  retryingOn_retryInv (by rw [startGen_frame]; rfl) (by rw [startGen_frame]; rfl) retrying_up_blocked

theorem step_retryingOn {g : State} (he : g.events = []) (hb : isBusy g = true) :
    step (retryingOn g) = .next (walkPass (retryingOn g)) := by
  rw [step_nil (s := retryingOn g) he]
  unfold engineStep
  rw [show isBusy (retryingOn g) = true from hb]
  rfl

/-- A walk with a blocked draw counted, and the turn that follows. -/
theorem witness_EveryStepKeepsTheRetryBound : StateInv retrying ∧ EdgeInv retrying ∧ RetryInv retrying ∧
    retrying.fsm = .genWalk ∧ retrying.retry = 1 ∧ hasError .cap retrying = false ∧
    step retrying = .next (walkPass retrying) :=
  ⟨retrying_stateInv, retrying_edgeInv, retrying_retryInv, rfl, rfl,
    (hasError_congr (s := startGen State.reset) (t := retrying) .cap rfl).trans (by rw [startGen_frame]; rfl),
    step_retryingOn (by rw [startGen_frame]; rfl) gen_busy⟩

theorem witness_BusyAlwaysFalls : StateInv (startGen State.reset) ∧ (startGen State.reset).events = [] ∧
    isBusy (startGen State.reset) = true := by
  refine ⟨gen_stateInv, ?_, ?_⟩ <;> rw [startGen_frame] <;> rfl

theorem witness_GenCoversTheGrid : StateInv State.reset ∧ isBusy State.reset = false ∧ State.reset.events = [] :=
  ⟨idle_stateInv [] 0, rfl, rfl⟩

theorem witness_GenIsAFunctionOfTheSeed :
    let u := { State.reset with status := 0x0E, sr := 0x01, pb := 1, dir := 2 }
    StateInv State.reset ∧ StateInv u ∧ isBusy State.reset = false ∧ isBusy u = false ∧ State.reset.events = [] ∧
    u.events = [] ∧ u.seed = State.reset.seed := by
  refine ⟨idle_stateInv [] 0, ?_, rfl, rfl, rfl, rfl, rfl⟩
  exact {
    mem_wf := by rfl
    status_reserved := by rfl
    busy_iff := by simp [isBusy, State.reset]
    chain_idle := fun _ => rfl
    pb_eq := by rfl
    cursor := by decide
    candidate := by decide
    retry_le := Nat.zero_le _
    walking := fun h => by cases h
    drawing := fun h => by cases h }

theorem witness_GenrastEqualsGenThenRast : StateInv State.reset ∧ isBusy State.reset = false ∧ State.reset.events = [] :=
  ⟨idle_stateInv [] 0, rfl, rfl⟩

theorem witness_Seed255CarvesLeftOnly : let s := { State.reset with seed := 0xFF }
    StateInv s ∧ isBusy s = false ∧ s.events = [] ∧ s.seed = 0xFF := ⟨idle_stateInv [] 0xFF, rfl, rfl, rfl⟩

theorem witness_ErrCapNeverRises :
    runsTo 2 { State.reset with events := [.write 0x002 7, cmd 0x05] }
      { State.reset with seed := 7, sr := 1, pb := 1, dir := 1 } := by rfl

end Sys2Proof.Tests
end

/-! # The engine does not look at what is pending

Replacing the pending events commutes with every engine operation, so with a whole turn of the engine (spec/00_scope.md
R14, R53; log entry 1). -/

namespace Sys2Proof.Machine

/-! What the engine reads. -/

@[simp] theorem isPole_setEvents (es : List Event) (s : State) (x y : Int) :
    isPole (setEvents es s) x y = isPole s x y := isPole_congr rfl rfl x y

@[simp] theorem isBlocked_setEvents (es : List Event) (s : State) (x y : Nat) (d : Direction) :
    isBlocked (setEvents es s) x y d = isBlocked s x y d := isBlocked_congr rfl rfl x y d

@[simp] theorem blockIndex_setEvents (es : List Event) (s : State) (bx b_y : Nat) :
    blockIndex (setEvents es s) bx b_y = blockIndex s bx b_y := blockIndex_congr rfl rfl bx b_y

/-- Of two lists of pending events the one put last stands. -/
@[simp] theorem setEvents_setEvents (es fs : List Event) (s : State) :
    setEvents es (setEvents fs s) = setEvents es s := rfl

/-! The scan (spec/41_maze_carver.md R76, R81 item 2). -/

theorem advanceScan_setEvents (es : List Event) (s : State) :
    advanceScan (setEvents es s) = setEvents es (advanceScan s) := by
  unfold advanceScan
  rw [apply_ite (setEvents es), apply_ite (setEvents es)]
  rfl

theorem finishGen_setEvents (es : List Event) (s : State) :
    finishGen (setEvents es s) = setEvents es (finishGen s) := by
  unfold finishGen
  rw [apply_ite (setEvents es)]
  rfl

theorem scanStep_setEvents (es : List Event) (s : State) :
    scanStep (setEvents es s) = setEvents es (scanStep s) := by
  unfold scanStep
  simp only [setEvents_scanDone, setEvents_cx, setEvents_cy, isPole_setEvents, finishGen_setEvents,
    advanceScan_setEvents, apply_ite (setEvents es)]
  rfl

/-! The walk (R77, R79, R81 item 3). -/

theorem carved_setEvents (d : Direction) (es : List Event) (s : State) :
    carved d (setEvents es s) = setEvents es (carved d s) := by
  cases d <;> rfl

theorem drawn_setEvents (es : List Event) (s : State) : drawn (setEvents es s) = setEvents es (drawn s) := rfl

theorem retryDraw_setEvents (es : List Event) (s : State) :
    retryDraw (setEvents es s) = setEvents es (retryDraw s) := by
  unfold retryDraw
  rw [apply_ite (setEvents es)]
  rfl

theorem carveDraw_setEvents (d : Direction) (es : List Event) (s : State) :
    carveDraw d (setEvents es s) = setEvents es (carveDraw d s) := by
  unfold carveDraw
  simp only [carved_setEvents, setEvents_x, setEvents_y, isPole_setEvents, advanceScan_setEvents,
    apply_ite (setEvents es)]

theorem walkPass_setEvents (es : List Event) (s : State) :
    walkPass (setEvents es s) = setEvents es (walkPass s) := by
  unfold walkPass drawnDirection
  simp only [drawn_setEvents, setEvents_x, setEvents_y, setEvents_dir, isBlocked_setEvents, retryDraw_setEvents,
    carveDraw_setEvents, apply_ite (setEvents es)]

/-! The expander (spec/42_layout_rasterizer.md R88). -/

theorem blockDrawn_setEvents (es : List Event) (s : State) :
    blockDrawn (setEvents es s) = setEvents es (blockDrawn s) := by
  unfold blockDrawn
  rw [blockIndex_setEvents]
  rfl

/-! One turn. -/

theorem walkStep_setEvents {s t : State} (es : List Event) (h : walkStep s = .next t) :
    walkStep (setEvents es s) = .next (setEvents es t) := by
  obtain ⟨hgrid, rfl⟩ := walkStep_next.mp h
  exact walkStep_next.mpr ⟨hgrid, (walkPass_setEvents es s).symm⟩

theorem rasterStep_setEvents {s t : State} (es : List Event) (h : rasterStep s = .next t) :
    rasterStep (setEvents es s) = .next (setEvents es t) := by
  rw [rasterStep_next] at h ⊢
  rcases h with ⟨hdone, rfl⟩ | ⟨hrow, hcol, rfl⟩
  · exact .inl ⟨hdone, rfl⟩
  · exact .inr ⟨hrow, hcol, (blockDrawn_setEvents es s).symm⟩

/-- A turn of the engine is the same turn whatever is pending, and keeps what is pending. -/
theorem engineStep_setEvents {s t : State} (es : List Event) (h : engineStep s = .next t) :
    engineStep (setEvents es s) = .next (setEvents es t) := by
  unfold engineStep at h ⊢
  rw [setEvents_fsm]
  cases hbusy : isBusy s <;>
    simp only [isBusy_setEvents, hbusy, if_true, Bool.false_eq_true, if_false] at h ⊢
  case false => cases h; rfl
  case true =>
    cases hfsm : s.fsm <;> simp only [hfsm] at h ⊢
    case idle => cases h; rfl
    case genScan => cases h; rw [scanStep_setEvents]
    case genWalk => exact walkStep_setEvents es h
    case rastRun => exact rasterStep_setEvents es h

/-- A turn with `es` pending is the turn with nothing pending, `es` put back after it. -/
theorem engineStep_setEvents_iff {s t : State} (es : List Event) :
    engineStep (setEvents es s) = .next t ↔
      ∃ u, engineStep (setEvents [] s) = .next u ∧ t = setEvents es u := by
  constructor
  · intro h
    have hkeep := engineStep_setEvents es h
    have hturn := engineStep_setEvents [] h
    rw [setEvents_setEvents] at hkeep hturn
    exact ⟨setEvents [] t, hturn, Host.Outcome.next.inj (h.symm.trans hkeep)⟩
  · rintro ⟨u, hu, rfl⟩
    have hturn := engineStep_setEvents es hu
    rwa [setEvents_setEvents] at hturn

/-- Settles O26: both steps are turns of the engine, which differ in the pending events alone. -/
theorem engineEventsAreTurnsOfTheEngine : Obligations.EngineEventsAreTurnsOfTheEngine := by
  intro s t rest hev
  have hevent : step s = engineStep (setEvents rest s) := step_cons hev
  have hturn : step { s with events := [] } = engineStep (setEvents [] s) := step_nil rfl
  rw [hevent, hturn]
  exact engineStep_setEvents_iff rest

end Sys2Proof.Machine

/-! # What one step can do to the state

One step, and one host write, said once as a closed list of effects. The invariant and the statements on who changes what
are case splits over these lists. -/

namespace Sys2Proof.Machine

/-! The command byte (spec/30_encoding.md R59). -/

/-- A byte that decodes is the encoding of its command. -/
theorem eq_encode_of_decodeCommand {d : Byte} {i : Instr} (h : decodeCommand d = .ok i) : d = encode i := by
  have table : ∀ d : Byte, ∀ i ∈ (decodeCommand d).toOption, d = encode i := by decide
  exact table d i (by rw [h]; rfl)

theorem decodeCommand_encode (i : Instr) : decodeCommand (encode i) = .ok i := by
  cases i <;> rfl

/-- An idle block runs the command whose byte is written to CMD (spec/20_memory.md R38). -/
theorem step_of_command {s : State} {rest : List Event} (i : Instr) (hev : s.events = .write 0x000 (encode i) :: rest)
    (hidle : isBusy s = false) : step s = exec i (setEvents rest s) := by
  have hwrite : step s = writeCommand (encode i) (setEvents rest s) := step_cons hev
  rw [hwrite, writeCommand, isBusy_setEvents, hidle, decodeCommand_encode]
  rfl

/-! A host write. -/

/-- What a host write of `d` to `a` can leave (spec/20_memory.md R38 to R46): at most the error bits, STATUS 3:1, are moved,
or BUSY is 0 and SEED, one wall cell or the command of byte `d` has its effect. -/
inductive WriteEffect (a : Address) (d : Byte) (s : State) : State → Prop
  /-- a rejected, reserved or ignored write, a NOP, or a write to STATUS -/
  | errorBits (v : Byte) (hv : v &&& 0xF1 = s.status &&& 0xF1) : WriteEffect a d s { s with status := v }
  | seed (ha : a = 0x002) (hidle : isBusy s = false) : WriteEffect a d s { s with seed := d }
  | cell (x y : Nat) (hx : x ≤ 17) (hy : y ≤ 8) (hidle : isBusy s = false) :
      WriteEffect a d s (wallWrite x y (d.setWidth 3) s)
  /-- the issue of GEN, or of GENRAST with CHAIN set first -/
  | gen (c : Bool) (hd : d = 0x01 ∨ d = 0x03) (ha : a = 0x000) (hidle : isBusy s = false) :
      WriteEffect a d s (startGen { s with chain := c })
  | rast (hd : d = 0x02) (ha : a = 0x000) (hidle : isBusy s = false) : WriteEffect a d s (startRaster (setBusy s))
  | load (hd : d = 0x04) (ha : a = 0x000) (hidle : isBusy s = false) : WriteEffect a d s (loadGenerator s.seed s)
  | draw (hd : d = 0x05) (ha : a = 0x000) (hidle : isBusy s = false) : WriteEffect a d s (nextDirection s)

namespace WriteEffect

variable {a : Address} {d : Byte}

theorem unchanged (s : State) : WriteEffect a d s s := errorBits s.status rfl

/-- Raising an error moves an error bit alone (spec/60_exceptions.md R101). -/
theorem raised (e : ErrorFlag) (s : State) : WriteEffect a d s (raise e s) := by
  refine errorBits (s.status ||| e.mask) ?_
  have hmask : e.mask &&& 0xF1 = 0#8 := by cases e <;> rfl
  rw [BitVec.and_comm, BitVec.and_or_distrib_left, BitVec.and_comm 0xF1 e.mask, hmask, BitVec.or_zero, BitVec.and_comm]

/-- Clearing errors moves error bits alone (spec/20_memory.md R39). -/
theorem cleared (s : State) : WriteEffect a d s (clearErrors d s) := by
  refine errorBits (s.status &&& ~~~(d &&& 0x0E)) ?_
  have hmask : ∀ d : Byte, ~~~(d &&& 0x0E) &&& 0xF1 = 0xF1 := by decide
  rw [BitVec.and_assoc, hmask]

/-- A write that needs BUSY = 0 is rejected or done. -/
theorem of_rejected_or {s t u : State} (h : (isBusy s = true ∧ t = raise .busy s) ∨ (isBusy s = false ∧ t = u))
    (hu : isBusy s = false → WriteEffect a d s u) : WriteEffect a d s t := by
  rcases h with ⟨-, rfl⟩ | ⟨hidle, rfl⟩
  · exact raised .busy s
  · exact hu hidle

/-- The effect of a write to CMD, by the command its byte decodes to (R38). -/
theorem of_exec {i : Instr} {s t : State} (h : exec i s = .next t) : WriteEffect 0x000 (encode i) s t := by
  rcases exec_cases h with ⟨-, rfl⟩ | ⟨-, -, rfl⟩ | ⟨hidle, rfl, rfl⟩ | ⟨hidle, rfl, rfl⟩ | ⟨hidle, rfl, rfl⟩ |
    ⟨hidle, rfl, rfl⟩ | ⟨hidle, rfl, rfl⟩
  · exact raised .busy s
  · exact unchanged t
  · exact gen s.chain (.inl rfl) rfl hidle
  · exact rast rfl rfl hidle
  · exact gen true (.inr rfl) rfl hidle
  · exact load rfl rfl hidle
  · exact draw rfl rfl hidle

theorem of_hostWrite {s t : State} (h : hostWrite a d s = .next t) : WriteEffect a d s t := by
  rcases hostWrite_cases h with ⟨rfl, hcmd⟩ | ⟨-, rfl⟩ | ⟨rfl, hseed⟩ | ⟨x, y, hx, hy, -, hcell⟩ | ⟨-, -, -, -, rfl⟩
  · rcases writeCommand_cases hcmd with ⟨-, rfl⟩ | ⟨-, i, hdec, hexec⟩ | ⟨-, -, rfl⟩
    · exact raised .busy s
    · obtain rfl := eq_encode_of_decodeCommand hdec
      exact of_exec hexec
    · exact raised .illegal s
  · exact cleared s
  · exact of_rejected_or hseed (seed rfl)
  · exact of_rejected_or hcell (cell x y hx hy)
  · exact unchanged t

end WriteEffect

/-! One step. -/

/-- The next step is a turn of the engine: nothing is pending, or an `engine` event is (log entry 1). -/
def engineTurn (s : State) : Prop := s.events = [] ∨ ∃ rest, s.events = .engine :: rest

/-- What one step can leave: after a turn of the engine, a read or a poll, a host write, or reset. -/
inductive StepEffect (s : State) : State → Prop
  | turn (rest : List Event) {t : State} (hev : engineTurn s) (hturn : engineStep (setEvents rest s) = .next t) :
      StepEffect s t
  /-- a read or a poll: the record of events and reads alone -/
  | record (es : List Event) (n : Nat) (as : List Byte) :
      StepEffect s { s with events := es, freeReads := n, answers := as }
  | write (a : Address) (d : Byte) (rest : List Event) {t : State} (hev : s.events = .write a d :: rest)
      (heff : WriteEffect a d (setEvents rest s) t) : StepEffect s t
  | reset (rest : List Event) (hev : s.events = .reset :: rest) : StepEffect s (resetBlock (setEvents rest s))

theorem stepEffect_of_step {s t : State} (h : step s = .next t) : StepEffect s t := by
  rcases step_cases h with ⟨hev, hturn⟩ | ⟨rest, hev, hturn⟩ | ⟨a, rest, -, rfl⟩ | ⟨a, d, rest, hev, hwrite⟩ |
    ⟨rest, -, rfl⟩ | ⟨rest, hev, rfl⟩
  · exact .turn [] (.inl hev) (by rwa [← hev])
  · exact .turn rest (.inr ⟨rest, hev⟩) hturn
  · rw [hostRead_frame]
    exact .record rest _ _
  · exact .write a d rest hev (.of_hostWrite hwrite)
  · exact .record _ s.freeReads s.answers
  · exact .reset rest hev

/-- A reset event resets the block (spec/70_reset_and_hazards.md R115). -/
theorem step_of_reset {s : State} {rest : List Event} (hev : s.events = .reset :: rest) :
    step s = .next (resetBlock (setEvents rest s)) := step_cons hev

/-! What a turn of the engine leaves unchanged. -/

/-- A turn of GEN_SCAN writes no array and does not draw (spec/41_maze_carver.md R81 item 2). -/
theorem scanStep_frame (s : State) :
    scanStep s = { s with
      status := (scanStep s).status, fsm := (scanStep s).fsm, x := (scanStep s).x, y := (scanStep s).y,
      cx := (scanStep s).cx, cy := (scanStep s).cy, retry := (scanStep s).retry,
      scanDone := (scanStep s).scanDone, blockX := (scanStep s).blockX, blockY := (scanStep s).blockY } := by
  rcases scanStep_cases s with ⟨-, h⟩ | ⟨-, -, h⟩ | ⟨-, -, h⟩ <;> rw [h]
  · rcases finishGen_cases s with ⟨-, h⟩ | ⟨-, h⟩ <;> rw [h] <;> rfl
  · rw [advanceScan_frame]
  · rfl

/-- A blocked draw writes nothing but the count and, at the cap, the abort (R77, R80). -/
theorem retryDraw_frame (s : State) :
    retryDraw s = { s with
      status := (retryDraw s).status, fsm := (retryDraw s).fsm, chain := (retryDraw s).chain, retry := s.retry + 1 } := by
  rcases retryDraw_cases s with ⟨-, h⟩ | ⟨-, h⟩ <;> rw [h]
  rfl

/-- An open draw carves one edge and moves the cursor and the scan (R77, R79). -/
theorem carveDraw_frame (d : Direction) (s : State) :
    carveDraw d s = { s with
      mem := (carveEdge s.x.toNat s.y.toNat d s).mem, fsm := (carveDraw d s).fsm, x := (carveDraw d s).x,
      y := (carveDraw d s).y, cx := (carveDraw d s).cx, cy := (carveDraw d s).cy, retry := 0,
      scanDone := (carveDraw d s).scanDone } := by
  rcases carveDraw_cases d s with ⟨-, h⟩ | ⟨-, h⟩ <;> rw [h]
  · rw [advanceScan_frame, carved_frame]
    rfl
  · rw [carved_frame]
    rfl

/-- A pass of the walk makes one draw, and leaves SEED and everything outside the carver alone (R77). -/
theorem walkPass_frame (s : State) :
    walkPass s = { s with
      sr := shiftedSr s.sr, pb := insertedBit s.sr, dir := (nextDirection s).dir, mem := (walkPass s).mem,
      status := (walkPass s).status, fsm := (walkPass s).fsm, chain := (walkPass s).chain, x := (walkPass s).x,
      y := (walkPass s).y, cx := (walkPass s).cx, cy := (walkPass s).cy, retry := (walkPass s).retry,
      scanDone := (walkPass s).scanDone } := by
  rcases walkPass_cases s with ⟨-, h⟩ | ⟨-, h⟩ <;> rw [h]
  · rw [retryDraw_frame, drawn_frame]
  · rw [carveDraw_frame, drawn_frame]

/-- A turn of RAST on a block writes memory and the block counters (spec/42_layout_rasterizer.md R88). -/
theorem blockDrawn_frame (s : State) :
    blockDrawn s = { s with
      mem := (blockDrawn s).mem, blockX := (blockDrawn s).blockX, blockY := (blockDrawn s).blockY } := rfl

theorem blockDrawn_blockX (s : State) : (blockDrawn s).blockX = if s.blockX < 18 then s.blockX + 1 else 0 := rfl

theorem blockDrawn_blockY (s : State) :
    (blockDrawn s).blockY = if s.blockX < 18 then s.blockY else s.blockY + 1 := rfl

end Sys2Proof.Machine

/-! # Every step keeps the state invariant

First the changes the invariant allows, one rule per group of fields; then each operation as a few of these changes. -/

namespace Sys2Proof.Machine

/-- Moving error bits alone leaves BUSY. -/
theorem isBusy_eq_of_and {s t : State} (h : t.status &&& 0xF1 = s.status &&& 0xF1) : isBusy t = isBusy s := by
  have hbit := congrArg (BitVec.getLsbD · 0) h
  simpa [isBusy] using hbit

/-- Setting BUSY where it is 1 already does nothing. -/
theorem setBusy_of_isBusy {s : State} (h : isBusy s = true) : setBusy s = s := by
  have or_one : ∀ v : Byte, v.getLsbD 0 = true → v ||| 0x01 = v := by decide
  rw [setBusy, or_one s.status h]

/-- Carving and moving do not look at the control state. -/
theorem carved_fsm_comm (d : Direction) (s : State) (f : Fsm) :
    carved d { s with fsm := f } = { carved d s with fsm := f } := by
  cases d <;> rfl

namespace StateInv

variable {s : State}

/-! What the invariant allows to change. -/

/-- The invariant does not look at SEED, the free contents' index or the record of events and reads. -/
theorem record (h : StateInv s) (seed : Byte) (epoch n : Nat) (es : List Event) (as : List Byte) :
    StateInv { s with seed := seed, epoch := epoch, freeReads := n, events := es, answers := as } :=
  { h with }

theorem memory (h : StateInv s) {m : Memory} (hm : Memory.wf m = true) : StateInv { s with mem := m } :=
  { h with mem_wf := hm }

theorem generator (h : StateInv s) {v : Byte} {p : BitVec 1} (c : BitVec 2) (hp : p = v.extractLsb' 0 1) :
    StateInv { s with sr := v, pb := p, dir := c } :=
  { h with pb_eq := hp }

/-- Only bits 0 and 7:4 of STATUS matter. -/
theorem errorBits (h : StateInv s) {v : Byte} (hv : v &&& 0xF1 = s.status &&& 0xF1) :
    StateInv { s with status := v } := by
  have hmask (u : Byte) : u &&& 0xF1 &&& 0xF0 = u &&& 0xF0 := by rw [BitVec.and_assoc]; rfl
  exact { h with
    status_reserved := by rw [← hmask v, hv, hmask, h.status_reserved]
    busy_iff := by rw [isBusy_eq_of_and (s := s) hv]; exact h.busy_iff }

/-- The cursor may move within its range, and during a walk within the region (spec/10_state.md R29). -/
theorem cursorAt (h : StateInv s) {x y : Int} (hrange : -1 ≤ x ∧ x ≤ 17 ∧ -1 ≤ y ∧ y ≤ 8)
    (hwalk : s.fsm = .genWalk → inRegion x y = true) : StateInv { s with x := x, y := y } :=
  { h with
    cursor := hrange
    walking := fun hf => ⟨hwalk hf, (h.walking hf).2⟩ }

/-- RETRY may change within its range, and during a walk below the cap (R31). -/
theorem retryAt (h : StateInv s) {n : Nat} (hle : n ≤ Config.retryCap) (hwalk : s.fsm = .genWalk → n < Config.retryCap) :
    StateInv { s with retry := n } :=
  { h with
    retry_le := hle
    walking := fun hf => ⟨(h.walking hf).1, hwalk hf, (h.walking hf).2.2⟩ }

/-- With BUSY = 1 the engine may go to GEN_SCAN, at any candidate (R30). -/
theorem scanAt (h : StateInv s) (hbusy : isBusy s = true) {cx cy : Nat} (hcx : cx ≤ 16) (hcy : cy ≤ 7) (done : Bool) :
    StateInv { s with fsm := .genScan, cx := cx, cy := cy, scanDone := done } :=
  { h with
    busy_iff := ⟨fun _ => by simp, fun _ => hbusy⟩
    chain_idle := fun hf => by cases hf
    candidate := ⟨hcx, hcy⟩
    walking := fun hf => by cases hf
    drawing := fun hf => by cases hf }

/-- BUSY and CHAIN fall as the engine goes idle (R20, R28). -/
theorem stopped (h : StateInv s) : StateInv (clearBusy { s with fsm := .idle, chain := false }) :=
  { h with
    status_reserved := reserved_and 0xFE h.status_reserved
    busy_iff := by simp
    chain_idle := fun _ => rfl
    walking := fun hf => by cases hf
    drawing := fun hf => by cases hf }

/-! The issue of the commands. -/

/-- The issue of GEN or GENRAST, whatever CHAIN becomes (spec/41_maze_carver.md R81 item 1). -/
theorem startGen (h : StateInv s) (c : Bool) : StateInv (startGen { s with chain := c }) := by
  have hmem : Memory.wf (Machine.startGen { s with chain := c }).mem = true := by
    rw [startGen_mem]
    exact initWall_wf h.mem_wf
  rw [startGen_frame]
  generalize (Machine.startGen { s with chain := c }).mem = m at hmem ⊢
  exact { h with
    mem_wf := hmem
    status_reserved := reserved_or h.status_reserved rfl
    busy_iff := ⟨fun _ => by simp, fun _ => isBusy_setBusy s⟩
    chain_idle := fun hf => by cases hf
    pb_eq := rfl
    candidate := by simp
    walking := fun hf => by cases hf
    drawing := fun hf => by cases hf }

/-- The issue of RAST (spec/42_layout_rasterizer.md R88). -/
theorem startRaster (h : StateInv s) : StateInv (startRaster (setBusy s)) :=
  { h with
    status_reserved := reserved_or h.status_reserved rfl
    busy_iff := ⟨fun _ => by simp, fun _ => isBusy_setBusy s⟩
    chain_idle := fun hf => by cases hf
    walking := fun hf => by cases hf
    drawing := fun _ => .inl ⟨Nat.zero_le _, Nat.zero_le _⟩ }

theorem writeEffect {a : Address} {d : Byte} {t : State} (h : StateInv s) (heff : WriteEffect a d s t) : StateInv t := by
  cases heff with
  | errorBits v hv => exact h.errorBits hv
  | seed => exact h.record d s.epoch s.freeReads s.events s.answers
  | cell x y hx hy => exact h.memory (wallWrite_wf _ hx hy h.mem_wf)
  | gen c => exact h.startGen c
  | rast => exact h.startRaster
  | load => exact h.generator s.dir (loadGenerator_pb_eq s.seed s)
  | draw => exact h.generator _ (nextDirection_pb_eq_bit0 s)

/-! The turns of GEN_SCAN. -/

theorem advanceScan (h : StateInv s) (hbusy : isBusy s = true) : StateInv (advanceScan s) := by
  obtain ⟨hcx, hcy⟩ := h.candidate
  rcases advanceScan_cases s with ⟨hlt, e⟩ | ⟨-, -, e⟩ | ⟨-, -, e⟩ <;> rw [e]
  · exact h.scanAt hbusy hcx hlt s.scanDone
  · exact h.scanAt hbusy (by omega) (Nat.zero_le 7) s.scanDone
  · exact h.scanAt hbusy hcx hcy true

/-- GEN ends idle, or goes on to RAST with BUSY still 1 (spec/43_command_control.md R99). -/
theorem finishGen (h : StateInv s) (hbusy : isBusy s = true) : StateInv (finishGen s) := by
  rcases finishGen_cases s with ⟨-, e⟩ | ⟨hchain, e⟩ <;> rw [e]
  · rw [← setBusy_of_isBusy hbusy]
    exact h.startRaster
  · have hstop := h.stopped
    rwa [← hchain] at hstop

/-- A walk starts at a candidate that is no pole, so in the region (R77). -/
theorem startWalk (h : StateInv s) (hbusy : isBusy s = true) (hleft : s.scanDone = false)
    (hopen : isPole s s.cx s.cy = false) : StateInv (startWalk s) := by
  have hcap := retryCap_ge
  have hcand := h.candidate
  exact { h with
    busy_iff := ⟨fun _ => by simp, fun _ => hbusy⟩
    chain_idle := fun hf => by cases hf
    cursor := by simp only [startWalk_x, startWalk_y]; omega
    retry_le := Nat.zero_le _
    walking := fun _ => ⟨(not_isPole_iff.mp hopen).1, by simp only [startWalk_retry]; omega, hleft⟩
    drawing := fun hf => by cases hf }

theorem scanStep (h : StateInv s) (hbusy : isBusy s = true) : StateInv (scanStep s) := by
  rcases scanStep_cases s with ⟨-, e⟩ | ⟨-, -, e⟩ | ⟨hleft, hopen, e⟩ <;> rw [e]
  · exact h.finishGen hbusy
  · exact h.advanceScan hbusy
  · exact h.startWalk hbusy hleft hopen

/-! The turns of GEN_WALK. -/

theorem drawn (h : StateInv s) (hreg : inRegion s.x s.y = true) : StateInv (drawn s) := by
  have hpos := inRegion_iff.mp hreg
  have hmem := wallOr_wf (x := s.x.toNat) (y := s.y.toNat) 1 (by omega) (by omega) h.mem_wf
  exact (h.memory hmem).generator _ (nextDirection_pb_eq_bit0 s)

/-- A blocked draw counts up to the cap, and at the cap the engine goes idle (R77, R80). -/
theorem retryDraw (h : StateInv s) (hlt : s.retry < Config.retryCap) : StateInv (retryDraw s) := by
  rcases retryDraw_cases s with ⟨hcap, e⟩ | ⟨hne, e⟩ <;> rw [e]
  · have hidle : StateInv (abortGen s) := h.stopped.writeEffect (.raised (a := 0) (d := 0) .cap _)
    exact hidle.retryAt (n := s.retry + 1) (Nat.le_of_eq hcap) fun hf => by cases hf
  · exact h.retryAt (by omega) fun _ => by omega

/-- One step from inside the region stays in the cursor's range (spec/10_state.md R29). -/
theorem carved (h : StateInv s) (d : Direction) (hreg : inRegion s.x s.y = true)
    (hwalk : s.fsm = .genWalk → inRegion (s.x + (offsetOf d).1) (s.y + (offsetOf d).2) = true) :
    StateInv (carved d s) := by
  have hpos := inRegion_iff.mp hreg
  have hmem := carveEdge_wf (x := s.x.toNat) (y := s.y.toNat) d (by omega) (by omega) h.mem_wf
  have hrange : -1 ≤ s.x + (offsetOf d).1 ∧ s.x + (offsetOf d).1 ≤ 17 ∧
      -1 ≤ s.y + (offsetOf d).2 ∧ s.y + (offsetOf d).2 ≤ 8 := by
    cases d <;> simp only [offsetOf] <;> omega
  have hmoved := ((h.memory hmem).cursorAt hrange hwalk).retryAt (Nat.zero_le _)
    fun _ => Nat.lt_of_lt_of_le (by decide) retryCap_ge
  rw [carved_frame]
  exact hmoved

/-- An open draw onto a pole leaves the walk, any other stays in the region (spec/41_maze_carver.md R77). -/
theorem carveDraw (h : StateInv s) (d : Direction) (hbusy : isBusy s = true) (hreg : inRegion s.x s.y = true) :
    StateInv (carveDraw d s) := by
  rcases carveDraw_cases d s with ⟨-, e⟩ | ⟨hopen, e⟩ <;> rw [e]
  · obtain ⟨hcx, hcy⟩ := h.candidate
    have hscan : StateInv { s with fsm := .genScan } := h.scanAt hbusy hcx hcy s.scanDone
    have hcarved := hscan.carved d hreg fun hf => by cases hf
    rw [carved_fsm_comm] at hcarved
    exact hcarved.advanceScan (by rwa [isBusy_congr (s := s) (by rw [carved_frame])])
  · refine h.carved d hreg fun _ => ?_
    have hin := (not_isPole_iff.mp hopen).1
    rwa [carved_frame] at hin

theorem walkPass (h : StateInv s) (hbusy : isBusy s = true) (hfsm : s.fsm = .genWalk) : StateInv (walkPass s) := by
  obtain ⟨hreg, hlt, -⟩ := h.walking hfsm
  have hdrawn := h.drawn hreg
  rcases walkPass_cases s with ⟨-, e⟩ | ⟨-, e⟩ <;> rw [e]
  · exact hdrawn.retryDraw hlt
  · exact hdrawn.carveDraw _ hbusy hreg

/-! The turns of RAST. -/

theorem blockDrawn (h : StateInv s) (hcol : s.blockX < 19) (hrow : s.blockY < 10) : StateInv (blockDrawn s) := by
  have hmem : Memory.wf (Machine.blockDrawn s).mem = true := by
    rw [Machine.blockDrawn, advanceBlock_mem]
    exact putBlock_wf _ (by omega) (by omega) h.mem_wf
  rw [blockDrawn_frame, blockDrawn_blockX, blockDrawn_blockY]
  generalize (Machine.blockDrawn s).mem = m at hmem ⊢
  exact { h with
    mem_wf := hmem
    drawing := fun _ => by dsimp only; split <;> omega }

/-! One step. -/

theorem engineStep {t : State} (h : StateInv s) (hturn : engineStep s = .next t) : StateInv t := by
  rcases engineStep_cases hturn with ⟨-, rfl⟩ | ⟨-, -, rfl⟩ | ⟨hbusy, -, rfl⟩ | ⟨hbusy, hfsm, -, rfl⟩ |
    ⟨-, -, hrow, hcol, rfl⟩ | ⟨-, -, -, rfl⟩
  · exact h
  · exact h
  · exact h.scanStep hbusy
  · exact h.walkPass hbusy hfsm
  · exact h.blockDrawn hcol hrow
  · exact h.stopped

/-- The invariant at reset; the clauses on X, Y, CX, CY and RETRY hold by the values chosen for them (log entry 3). -/
theorem ofReset : StateInv State.reset where
  mem_wf := reset_mem_wf
  status_reserved := by decide
  busy_iff := by decide
  chain_idle := fun _ => rfl
  pb_eq := by decide
  cursor := by decide
  candidate := by decide
  retry_le := Nat.zero_le _
  walking := fun hf => by cases hf
  drawing := fun hf => by cases hf

theorem resetBlock (s : State) : StateInv (resetBlock s) :=
  ofReset.record 0 (s.epoch + 1) s.freeReads s.events s.answers

theorem step {t : State} (h : StateInv s) (hstep : step s = .next t) : StateInv t := by
  have pending (es : List Event) : StateInv (setEvents es s) := h.record s.seed s.epoch s.freeReads es s.answers
  cases stepEffect_of_step hstep with
  | turn rest _ hturn => exact (pending rest).engineStep hturn
  | record es n as => exact h.record s.seed s.epoch n es as
  | write a d rest _ heff => exact (pending rest).writeEffect heff
  | reset rest => exact resetBlock (setEvents rest s)

end StateInv

/-- Settles O45: a step is one of the effects of `StepEffect`, and each keeps the invariant. -/
theorem everyStepKeepsTheInvariant : Obligations.EveryStepKeepsTheInvariant :=
  fun _ _ h hstep => h.step hstep

end Sys2Proof.Machine

/-! # Reset (spec/10_state.md R33, R34; spec/70_reset_and_hazards.md R115) -/

namespace Sys2Proof.Machine

/-! The invariants of a running GEN say nothing of an idle engine. -/

theorem not_inGen_of_idle {s : State} (h : s.fsm = .idle) : ¬ inGen s := by simp [inGen, h]

theorem not_genWalk_of_idle {s : State} (h : s.fsm = .idle) : s.fsm ≠ .genWalk := by simp [h]

theorem coverInv_of_idle {s : State} (h : s.fsm = .idle) : CoverInv s where
  border := fun hg => absurd hg (not_inGen_of_idle h)
  scanned := fun hg => absurd hg (not_inGen_of_idle h)
  current := fun hw => absurd hw (not_genWalk_of_idle h)
  bottom_row := fun hg => absurd hg (not_inGen_of_idle h)
  right_column := fun hg => absurd hg (not_inGen_of_idle h)

theorem edgeInv_of_idle {s : State} (h : s.fsm = .idle) : EdgeInv s where
  unvisited := fun hg => absurd hg (not_inGen_of_idle h)
  one_blocked := fun hw => absurd hw (not_genWalk_of_idle h)

theorem retryInv_of_idle {s : State} (h : s.fsm = .idle) : RetryInv s where
  blocked_run := fun hw => absurd hw (not_genWalk_of_idle h)
  left_open := fun hw => absurd hw (not_genWalk_of_idle h)

/-- Settles O44: the engine is idle at reset, which leaves the state invariant and ERR_CAP to check. -/
theorem resetSatisfiesTheInvariant : Obligations.ResetSatisfiesTheInvariant :=
  ⟨.ofReset, coverInv_of_idle rfl, edgeInv_of_idle rfl, retryInv_of_idle rfl, rfl⟩

/-- Settles O30: `resetBlock` takes the registers from `State.reset`. -/
theorem resetPutsTheRegistersAtTheirValues : Obligations.ResetPutsTheRegistersAtTheirValues := by
  rintro t (rfl | ⟨s, rest, hev, hstep⟩)
  · exact ⟨rfl, rfl, rfl, rfl, rfl, rfl, rfl⟩
  · rw [step_of_reset hev] at hstep
    obtain rfl := Host.Outcome.next.inj hstep
    exact ⟨rfl, rfl, rfl, rfl, rfl, rfl, rfl⟩

/-! What the arrays hold where nothing is listed. -/

theorem unlistedByte_wallAddr (epoch : Nat) {x y : Nat} (hx : x ≤ 17) (hy : y ≤ 8) :
    unlistedByte epoch (wallAddr x y) = (Config.unwrittenWall epoch (wallAddr x y)).setWidth 8 :=
  if_pos (by unfold wallAddr; omega)

theorem unlistedByte_pixAddr (epoch : Nat) {r c : Nat} (hr : r ≤ 19) (hc : c ≤ 37) :
    unlistedByte epoch (pixAddr r c) = (Config.unwrittenPixel epoch (pixAddr r c)).setWidth 8 := by
  have hpix : ¬ pixAddr r c ≤ 0x1A1 ∧ 0x400 ≤ pixAddr r c ∧ pixAddr r c ≤ 0x6F7 := by unfold pixAddr; omega
  obtain ⟨hwall, hlo, hhi⟩ := hpix
  rw [unlistedByte, if_neg (fun h => hwall h.2), if_pos ⟨hlo, hhi⟩]

/-- A reset leaves nothing listed. -/
theorem readByte_resetBlock (s : State) (a : Nat) : readByte (resetBlock s) a = unlistedByte (s.epoch + 1) a := rfl

/-- Settles O31: after a reset no location is listed, so each reads as the free value of the new reset's number. -/
theorem resetLeavesTheArraysFree : Obligations.ResetLeavesTheArraysFree := by
  intro s rest hev
  refine ⟨_, step_of_reset hev, fun x y hx hy => ?_, fun r c hr hc => ?_, rfl, rfl⟩
  · rw [wallRead, readByte_resetBlock, unlistedByte_wallAddr _ hx hy, setWidth_cell_roundtrip]
    rfl
  · rw [pixRead, readByte_resetBlock, unlistedByte_pixAddr _ hr hc, setWidth_pixel_roundtrip]
    rfl

end Sys2Proof.Machine

/-! # BUSY (spec/10_state.md R20) -/

namespace Sys2Proof.Machine

/-- With the invariant, BUSY is 0 exactly while the engine is idle. -/
theorem StateInv.isBusy_false_iff {s : State} (h : StateInv s) : isBusy s = false ↔ s.fsm = .idle := by
  rw [← Bool.not_eq_true, h.busy_iff, ne_eq, not_not]

@[simp] theorem isBusy_resetBlock (s : State) : isBusy (resetBlock s) = false := by simp [isBusy]

/-- BUSY rises with the write that issues GEN, RAST or GENRAST. -/
theorem isBusy_of_issue {s t : State} {rest : List Event} {d : Byte} (hev : s.events = .write 0x000 d :: rest)
    (hd : d = 0x01 ∨ d = 0x02 ∨ d = 0x03) (hidle : isBusy s = false) (h : step s = .next t) : isBusy t = true := by
  have issued (i : Instr) (hi : d = encode i) {f : State → State}
      (hexec : exec i (setEvents rest s) = whenIdle (setEvents rest s) f) : t = f (setEvents rest s) := by
    rw [step_of_command i (hi ▸ hev) hidle, hexec, whenIdle_idle (s := setEvents rest s) f hidle] at h
    exact (Host.Outcome.next.inj h).symm
  have busy_startGen (u : State) : isBusy (startGen u) = true := by
    rw [startGen_frame]
    exact isBusy_setBusy u
  rcases hd with hd | hd | hd
  · rw [issued .gen hd (exec_gen _)]
    exact busy_startGen _
  · rw [issued .rast hd (exec_rast _)]
    exact isBusy_setBusy _
  · rw [issued .genrast hd (exec_genrast _)]
    exact busy_startGen _

/-- From BUSY = 0 a host write raises BUSY only as one of the three commands. -/
theorem WriteEffect.issue_of_isBusy {a : Address} {d : Byte} {s t : State} (h : WriteEffect a d s t)
    (hidle : isBusy s = false) (hbusy : isBusy t = true) : a = 0x000 ∧ (d = 0x01 ∨ d = 0x02 ∨ d = 0x03) := by
  have stays (hsame : isBusy t = isBusy s) : False :=
    Bool.false_ne_true (hidle.symm.trans (hsame.symm.trans hbusy))
  cases h with
  | errorBits v hv => exact (stays (isBusy_eq_of_and hv)).elim
  | seed => exact (stays (isBusy_congr rfl)).elim
  | cell => exact (stays (isBusy_congr rfl)).elim
  | gen c hd ha => exact ⟨ha, hd.imp_right .inr⟩
  | rast hd ha => exact ⟨ha, .inr (.inl hd)⟩
  | load => exact (stays (isBusy_congr rfl)).elim
  | draw => exact (stays (isBusy_congr rfl)).elim

/-- While BUSY = 1 a host write leaves it so. -/
theorem WriteEffect.isBusy_of_isBusy {a : Address} {d : Byte} {s t : State} (h : WriteEffect a d s t)
    (hbusy : isBusy s = true) : isBusy t = true := by
  cases h with
  | errorBits v hv => rwa [isBusy_eq_of_and (s := s) hv]
  | seed _ hidle | cell _ _ _ _ hidle | gen _ _ _ hidle | rast _ _ hidle | load _ _ hidle | draw _ _ hidle =>
    rw [hidle] at hbusy
    cases hbusy

/-- An idle block has no turn of the engine (log entry 15). -/
theorem engineStep_idle {s t : State} (hidle : isBusy s = false) (h : engineStep s = .next t) : t = s := by
  unfold engineStep at h
  rw [hidle] at h
  exact (Host.Outcome.next.inj h).symm

/-- BUSY rises with no other step. -/
theorem issue_of_isBusy_rises {s t : State} (h : step s = .next t) (hidle : isBusy s = false) (hbusy : isBusy t = true) :
    ∃ d rest, s.events = .write 0x000 d :: rest ∧ (d = 0x01 ∨ d = 0x02 ∨ d = 0x03) := by
  cases stepEffect_of_step h with
  | turn rest _ hturn =>
    rw [engineStep_idle (s := setEvents rest s) hidle hturn, isBusy_setEvents, hidle] at hbusy
    cases hbusy
  | record => exact (Bool.false_ne_true (hidle.symm.trans hbusy)).elim
  | write a d rest hev heff =>
    obtain ⟨rfl, hd⟩ := heff.issue_of_isBusy hidle hbusy
    exact ⟨d, rest, hev, hd⟩
  | reset =>
    rw [isBusy_resetBlock] at hbusy
    cases hbusy

/-- BUSY falls only in a turn of the engine or at reset. -/
theorem turn_or_reset_of_isBusy_falls {s t : State} (h : step s = .next t) (hbusy : isBusy s = true)
    (hidle : isBusy t = false) : engineTurn s ∨ ∃ rest, s.events = .reset :: rest := by
  cases stepEffect_of_step h with
  | turn _ hev => exact .inl hev
  | record => exact (Bool.false_ne_true (hidle.symm.trans hbusy)).elim
  | write _ _ _ _ heff => exact (Bool.false_ne_true (hidle.symm.trans (heff.isBusy_of_isBusy hbusy))).elim
  | reset rest hev => exact .inr ⟨rest, hev⟩

/-- Settles O16: what FSM is after the step is the invariant's clause on BUSY, which every step keeps. -/
theorem busyRisesAndFalls : Obligations.BusyRisesAndFalls := by
  intro s t hinv hstep
  have hinv' := hinv.step hstep
  refine ⟨fun hidle => ⟨issue_of_isBusy_rises hstep hidle, ?_⟩, fun hbusy hidle => ?_, hinv'.busy_iff.mp⟩
  · rintro ⟨d, rest, hev, hd⟩
    exact isBusy_of_issue hev hd hidle hstep
  · exact ⟨hinv'.isBusy_false_iff.mp hidle, or_assoc.mp (turn_or_reset_of_isBusy_falls hstep hbusy hidle)⟩

end Sys2Proof.Machine

/-! # Who changes SEED, the generator and the pixels (spec/10_state.md R15 to R18, R27) -/

namespace Sys2Proof.Machine

/-! SEED. -/

theorem engineStep_seed {s t : State} (h : engineStep s = .next t) : t.seed = s.seed := by
  rcases engineStep_cases h with ⟨-, rfl⟩ | ⟨-, -, rfl⟩ | ⟨-, -, rfl⟩ | ⟨-, -, -, rfl⟩ | ⟨-, -, -, -, rfl⟩ |
    ⟨-, -, -, rfl⟩
  · rfl
  · rfl
  · rw [scanStep_frame]
  · rw [walkPass_frame]
  · rfl
  · rfl

theorem WriteEffect.seed_changes {a : Address} {d : Byte} {s t : State} (h : WriteEffect a d s t)
    (hne : t.seed ≠ s.seed) : a = 0x002 ∧ isBusy s = false ∧ t.seed = d := by
  cases h with
  | seed ha hidle => exact ⟨ha, hidle, rfl⟩
  | gen => exact absurd (by rw [startGen_frame]) hne
  | errorBits | cell | rast | load | draw => exact absurd rfl hne

/-- Settles O27: of the effects of a step only a write to SEED and reset touch it. -/
theorem seedChangesOnlyByTheHost : Obligations.SeedChangesOnlyByTheHost := by
  intro s t hstep hne
  cases stepEffect_of_step hstep with
  | turn rest _ hturn => exact absurd (engineStep_seed hturn) hne
  | record => exact absurd rfl hne
  | write a d rest hev heff =>
    obtain ⟨rfl, hidle, hd⟩ := heff.seed_changes hne
    exact .inl ⟨d, rest, hev, hidle, hd⟩
  | reset rest hev => exact .inr ⟨rest, hev⟩

/-! SR, PB and DIR. -/

/-- The generator stays as it is. -/
def generatorKept (s t : State) : Prop := t.sr = s.sr ∧ t.pb = s.pb ∧ t.dir = s.dir

/-- The generator makes one draw (spec/40_direction_generator.md R65). -/
def generatorDraws (s t : State) : Prop :=
  t.sr = (nextDirection s).sr ∧ t.pb = (nextDirection s).pb ∧ t.dir = (nextDirection s).dir

/-- The generator is loaded from SEED and DIR is kept (R66). -/
def generatorSeeded (s t : State) : Prop := t.sr = s.seed ∧ t.pb = s.seed.extractLsb' 0 1 ∧ t.dir = s.dir

/-- The bits of SR after a draw: bits 6:0 move up and the inserted bit follows (R65 step 3). -/
theorem shiftedSr_eq_append (v : Byte) : shiftedSr v = v.extractLsb' 0 7 ++ insertedBit v := by
  revert v; decide

theorem generatorDraws_iff {s t : State} : generatorDraws s t ↔
    t.pb = ~~~(s.sr.extractLsb' 7 1 ^^^ s.sr.extractLsb' 4 1) ∧ t.sr = s.sr.extractLsb' 0 7 ++ t.pb ∧
      t.dir = s.pb ++ t.pb := by
  rw [generatorDraws, nextDirection_dir_append, nextDirection_sr, nextDirection_pb, shiftedSr_eq_append]
  show _ ↔ t.pb = insertedBit s.sr ∧ _
  constructor
  · rintro ⟨hsr, hpb, hdir⟩
    rw [hpb]
    exact ⟨rfl, hsr, hdir⟩
  · rintro ⟨hpb, hsr, hdir⟩
    rw [hpb] at hsr hdir
    exact ⟨hsr, hpb, hdir⟩

/-- A turn of the engine draws in GEN_WALK, and there alone. -/
theorem engineStep_generator {s t : State} (h : engineStep s = .next t) :
    generatorKept s t ∨ (isBusy s = true ∧ s.fsm = .genWalk ∧ generatorDraws s t) := by
  rcases engineStep_cases h with ⟨-, rfl⟩ | ⟨-, -, rfl⟩ | ⟨-, -, rfl⟩ | ⟨hbusy, hfsm, -, rfl⟩ | ⟨-, -, -, -, rfl⟩ |
    ⟨-, -, -, rfl⟩
  · exact .inl ⟨rfl, rfl, rfl⟩
  · exact .inl ⟨rfl, rfl, rfl⟩
  · rw [scanStep_frame]
    exact .inl ⟨rfl, rfl, rfl⟩
  · rw [walkPass_frame]
    exact .inr ⟨hbusy, hfsm, rfl, rfl, rfl⟩
  · rw [blockDrawn_frame]
    exact .inl ⟨rfl, rfl, rfl⟩
  · exact .inl ⟨rfl, rfl, rfl⟩

/-- What a host write does to the generator: nothing, a seeding by GEN, GENRAST or LFSR_LOAD, or LFSR_NEXT's draw. -/
theorem WriteEffect.generator {a : Address} {d : Byte} {s t : State} (h : WriteEffect a d s t) :
    generatorKept s t ∨
    (a = 0x000 ∧ isBusy s = false ∧ (d = 0x01 ∨ d = 0x03 ∨ d = 0x04) ∧ generatorSeeded s t) ∨
    (a = 0x000 ∧ isBusy s = false ∧ d = 0x05 ∧ generatorDraws s t) := by
  cases h with
  | gen c hd ha hidle =>
    rw [startGen_frame]
    exact .inr (.inl ⟨ha, hidle, hd.imp_right .inl, rfl, rfl, rfl⟩)
  | load hd ha hidle => exact .inr (.inl ⟨ha, hidle, .inr (.inr hd), rfl, rfl, rfl⟩)
  | draw hd ha hidle => exact .inr (.inr ⟨ha, hidle, hd, rfl, rfl, rfl⟩)
  | errorBits | seed | cell | rast => exact .inl ⟨rfl, rfl, rfl⟩

/-- Settles O28: each effect of a step keeps, seeds, draws or resets the generator. -/
theorem generatorChangesOnlyBySeedingOrDrawing : Obligations.GeneratorChangesOnlyBySeedingOrDrawing := by
  intro s t hstep
  cases stepEffect_of_step hstep with
  | turn rest hev hturn =>
    rcases engineStep_generator hturn with hkept | ⟨hbusy, hfsm, hdraw⟩
    · exact .inl hkept
    · obtain ⟨hpb, hsr, hdir⟩ := generatorDraws_iff.mp hdraw
      exact .inr (.inr (.inl ⟨hpb, hsr, hdir, .inr ⟨hbusy, hfsm, hev⟩⟩))
  | record => exact .inl ⟨rfl, rfl, rfl⟩
  | write a d rest hev heff =>
    rcases heff.generator with hkept | ⟨rfl, hidle, hd, hsr, hpb, hdir⟩ | ⟨rfl, hidle, rfl, hdraw⟩
    · exact .inl hkept
    · exact .inr (.inl ⟨hsr, hpb, hdir, hidle, d, rest, hev, hd⟩)
    · obtain ⟨hpb, hsr, hdir⟩ := generatorDraws_iff.mp hdraw
      exact .inr (.inr (.inl ⟨hpb, hsr, hdir, .inl ⟨hidle, rest, hev⟩⟩))
  | reset rest hev => exact .inr (.inr (.inr ⟨rest, hev⟩))

/-! The pixels. -/

/-- The carver's stores of bits lie in WALL. -/
theorem pixRead_wallOr (s : State) {x y : Nat} (v : WallCell) (r c : Nat) (hx : x ≤ 17) (hy : y ≤ 8) :
    pixRead (wallOr x y v s) r c = pixRead s r c := pixRead_wallWrite s _ r c hx hy

theorem pixRead_carveEdge (s : State) {x y : Nat} (d : Direction) (r c : Nat) (hx : x ≤ 16) (hy : y ≤ 7) :
    pixRead (carveEdge x y d s) r c = pixRead s r c := by
  obtain ⟨hx', hy'⟩ := edgeOwner_inGrid d hx hy
  rw [carveEdge_eq, pixRead_wallOr _ _ _ _ hx' hy']

/-- A pass of the walk from inside the region writes WALL alone (spec/41_maze_carver.md R77). -/
theorem pixRead_walkPass {s : State} (h : inRegion s.x s.y = true) (r c : Nat) :
    pixRead (walkPass s) r c = pixRead s r c := by
  have hpos := inRegion_iff.mp h
  have hx : s.x.toNat ≤ 16 := by omega
  have hy : s.y.toNat ≤ 7 := by omega
  have hdrawn : pixRead (drawn s) r c = pixRead s r c :=
    pixRead_wallOr s 1 r c (Nat.le_succ_of_le hx) (Nat.le_succ_of_le hy)
  rw [← hdrawn]
  rcases walkPass_cases s with ⟨-, e⟩ | ⟨-, e⟩ <;> rw [e]
  · rw [retryDraw_frame]
    rfl
  · rw [← pixRead_carveEdge (drawn s) (drawnDirection s) r c hx hy]
    refine pixRead_congr ?_ ?_ r c
    · rw [carveDraw_frame]
      rfl
    · rw [carveDraw_frame, carveEdge_epoch]

/-- The issue of GEN writes WALL alone (R74). -/
theorem pixRead_startGen (s : State) (r c : Nat) : pixRead (startGen s) r c = pixRead s r c := by
  have hinit : readByte (initWall (loadGenerator s.seed (setBusy s))) (pixAddr r c) = readByte s (pixAddr r c) :=
    readByte_initWall_other _ (.inr (by unfold pixAddr; omega))
  have hepoch : (startGen s).epoch = (initWall (loadGenerator s.seed (setBusy s))).epoch := by
    rw [startGen_frame, initWall_frame]
    rfl
  rw [pixRead, pixRead, ← hinit, readByte_congr (startGen_mem s) hepoch]

/-- A turn of the engine outside RAST leaves every pixel. -/
theorem pixRead_engineStep {s t : State} (hinv : StateInv s) (h : engineStep s = .next t) (r c : Nat) :
    pixRead t r c = pixRead s r c ∨ (isBusy s = true ∧ s.fsm = .rastRun) := by
  rcases engineStep_cases h with ⟨-, rfl⟩ | ⟨-, -, rfl⟩ | ⟨-, -, rfl⟩ | ⟨-, hfsm, -, rfl⟩ | ⟨hbusy, hfsm, -⟩ |
    ⟨hbusy, hfsm, -⟩
  · exact .inl rfl
  · exact .inl rfl
  · rw [scanStep_frame]
    exact .inl (pixRead_congr rfl rfl r c)
  · exact .inl (pixRead_walkPass (hinv.walking hfsm).1 r c)
  · exact .inr ⟨hbusy, hfsm⟩
  · exact .inr ⟨hbusy, hfsm⟩

/-- No host write reaches a pixel (spec/20_memory.md R45). -/
theorem WriteEffect.pixRead {a : Address} {d : Byte} {s t : State} (h : WriteEffect a d s t) (r c : Nat) :
    pixRead t r c = pixRead s r c := by
  cases h with
  | cell x y hx hy => exact pixRead_wallWrite s _ r c hx hy
  | gen cn => exact pixRead_startGen _ r c
  | errorBits | seed | rast | load | draw => exact pixRead_congr rfl rfl r c

/-- Settles O29: of the effects of a step only a turn of RAST and reset reach a pixel. -/
theorem pixChangesOnlyByRast : Obligations.PixChangesOnlyByRast := by
  intro s t r c hinv _ _ hstep hne
  cases stepEffect_of_step hstep with
  | turn rest hev hturn =>
    have hinv' : StateInv (setEvents rest s) := hinv.record s.seed s.epoch s.freeReads rest s.answers
    rcases pixRead_engineStep hinv' hturn r c with hsame | ⟨hbusy, hfsm⟩
    · exact absurd hsame hne
    · exact .inl ⟨hbusy, hfsm, hev⟩
  | record => exact absurd (pixRead_congr rfl rfl r c) hne
  | write _ _ _ _ heff => exact absurd (heff.pixRead r c) hne
  | reset rest hev => exact .inr ⟨rest, hev⟩

end Sys2Proof.Machine

/-! # The host port (spec/20_memory.md)

What the next step does when a read or a write is pending, by the location the address leads to. The statements on the
port are these rules at the addresses they name. -/

namespace Sys2Proof.Machine

/-! Where an address leads (R36). -/

/-- The unmapped addresses (R37). -/
theorem locate_eq_unmapped {a : Address}
    (h : (0x006 ≤ a.toNat ∧ a.toNat ≤ 0x0FF) ∨ (0x1A2 ≤ a.toNat ∧ a.toNat ≤ 0x3FF) ∨ 0x6F8 ≤ a.toNat) :
    locate a = .unmapped := by
  unfold locate
  simp only
  split_ifs
  any_goals omega
  rfl

/-- Every address of the PIX window is a pixel's. -/
theorem exists_locate_eq_pix {a : Address} (hlo : 0x400 ≤ a.toNat) (hhi : a.toNat ≤ 0x6F7) :
    ∃ r c, locate a = .pix r c := by
  refine ⟨(a.toNat - 0x400) / 38, (a.toNat - 0x400) % 38, locate_pix (by omega) (by omega) ?_⟩
  unfold pixAddr
  omega

/-- The addresses whose reads are hidden while BUSY = 1 (R46). -/
theorem hiddenWhileBusy_locate_iff (a : Address) :
    hiddenWhileBusy (locate a) = true ↔
      (0x002 ≤ a.toNat ∧ a.toNat ≤ 0x005) ∨ (0x100 ≤ a.toNat ∧ a.toNat ≤ 0x1A1) ∨
        (0x400 ≤ a.toNat ∧ a.toNat ≤ 0x6F7) := by
  unfold locate
  simp only
  split_ifs <;> simp only [hiddenWhileBusy, true_iff, Bool.false_eq_true, false_iff] <;> omega

/-! Reads. -/

@[simp] theorem readValue_setEvents (es : List Event) (s : State) (l : Location) :
    readValue (setEvents es s) l = readValue s l := by
  cases l <;> rfl

/-- A read of a location that BUSY does not hide answers what it holds. -/
theorem step_read_open {s : State} {a : Address} {rest : List Event} (hev : s.events = .read a :: rest)
    (hopen : isBusy s = false ∨ hiddenWhileBusy (locate a) = false) :
    step s = .next { s with events := rest, answers := readValue s (locate a) :: s.answers } := by
  have hread : hostRead a (setEvents rest s) = answer (readValue s (locate a)) (setEvents rest s) := by
    rcases hopen with h | h <;> simp [hostRead, h]
  rw [step_cons hev, handleEvent, hread]
  rfl

/-- A read of a hidden location while BUSY = 1 answers the next free value (log entry 6). -/
theorem step_read_hidden {s : State} {a : Address} {rest : List Event} (hev : s.events = .read a :: rest)
    (hbusy : isBusy s = true) (hhidden : hiddenWhileBusy (locate a) = true) :
    step s = .next { s with
      events := rest, answers := Config.busyRead s.freeReads :: s.answers, freeReads := s.freeReads + 1 } := by
  have hread : hostRead a (setEvents rest s) = answerFree (setEvents rest s) := by
    simp [hostRead, hbusy, hhidden]
  rw [step_cons hev, handleEvent, hread]
  rfl

/-! Writes. -/

/-- The locations at which a write does nothing, whatever BUSY is (R37, R41, R45). -/
def ignoresWrites : Location → Bool
  | .sr | .pb | .dir | .pix _ _ | .unmapped => true
  | .cmd | .status | .seed | .wall _ _ => false

theorem hostWrite_of_ignoresWrites {a : Address} (d : Byte) (s : State) (h : ignoresWrites (locate a) = true) :
    hostWrite a d s = .next s := by
  unfold hostWrite
  cases hl : locate a with
  | sr | pb | dir | pix | unmapped => rfl
  | cmd | status | seed | wall =>
    rw [hl] at h
    cases h

theorem step_write_ignored {s : State} {a : Address} {d : Byte} {rest : List Event}
    (hev : s.events = .write a d :: rest) (h : ignoresWrites (locate a) = true) :
    step s = .next { s with events := rest } :=
  (step_cons hev).trans (hostWrite_of_ignoresWrites d _ h)

/-- A write to SEED needs BUSY = 0 (R40). -/
theorem step_write_seed {s : State} {d : Byte} {rest : List Event} (hev : s.events = .write 0x002 d :: rest) :
    step s = whenIdle (setEvents rest s) (fun u => { u with seed := d }) := step_cons hev

/-- A write to a wall cell needs BUSY = 0 (R43). -/
theorem step_write_wall {s : State} {a : Address} {d : Byte} {rest : List Event} {x y : Nat}
    (hev : s.events = .write a d :: rest) (hx : x ≤ 17) (hy : y ≤ 8) (ha : a.toNat = wallAddr x y) :
    step s = whenIdle (setEvents rest s) (wallWrite x y (d.setWidth 3)) := by
  rw [step_cons hev, handleEvent, hostWrite, locate_wall hx hy ha]

/-! Writes to CMD (R38). -/

theorem step_write_cmd {s : State} {d : Byte} {rest : List Event} (hev : s.events = .write 0x000 d :: rest) :
    step s = writeCommand d (setEvents rest s) := step_cons hev

theorem writeCommand_busy {d : Byte} {s : State} (hbusy : isBusy s = true) :
    writeCommand d s = .next (raise .busy s) := by
  simp [writeCommand, hbusy]

/-- Every command is rejected alike while BUSY = 1 (spec/60_exceptions.md R106). -/
theorem exec_busy (i : Instr) {s : State} (hbusy : isBusy s = true) : exec i s = .next (raise .busy s) := by
  cases i with
  | nop => exact (exec_nop s).trans (whenIdle_busy _ hbusy)
  | gen => exact (exec_gen s).trans (whenIdle_busy _ hbusy)
  | rast => exact (exec_rast s).trans (whenIdle_busy _ hbusy)
  | genrast => exact (exec_genrast s).trans (whenIdle_busy _ hbusy)
  | lfsrLoad => exact (exec_lfsrLoad s).trans (whenIdle_busy _ hbusy)
  | lfsrNext => exact (exec_lfsrNext s).trans (whenIdle_busy _ hbusy)

/-- A byte that decodes is its command, BUSY or not: the command itself is rejected while BUSY = 1. -/
theorem writeCommand_of_ok {d : Byte} {i : Instr} (s : State) (hdec : decodeCommand d = .ok i) :
    writeCommand d s = exec i s := by
  cases hbusy : isBusy s with
  | true => rw [writeCommand_busy hbusy, exec_busy i hbusy]
  | false => simp [writeCommand, hbusy, hdec]

/-- A reserved byte raises an error alone, and BUSY chooses which (spec/43_command_control.md R100). -/
theorem writeCommand_of_error {d : Byte} {e : DecodeError} (s : State) (hdec : decodeCommand d = .error e) :
    writeCommand d s = .next { s with status := s.status ||| (if isBusy s then 0x04 else 0x02) } := by
  cases hbusy : isBusy s with
  | true => rw [writeCommand_busy hbusy]; rfl
  | false => simp [writeCommand, hbusy, hdec, raise, ErrorFlag.mask]

/-- A word the table decodes is one byte (spec/30_encoding.md R57). -/
theorem decodeTableWord_eq_some {w : Nat} {i : Instr} (h : decodeTableWord 8 w = some i) :
    w < 256 ∧ decodeCommand (BitVec.ofNat 8 w) = .ok i := by
  unfold decodeTableWord at h
  split at h
  case isFalse => cases h
  case isTrue hw =>
    refine ⟨hw.2, ?_⟩
    cases hdec : decodeCommand (BitVec.ofNat 8 w) with
    | ok j => rw [hdec] at h; cases h; rfl
    | error e => rw [hdec] at h; cases h

/-- The word placed by `withFetchWord` is the next command to run (log entry 10). -/
theorem step_withFetchWord {s : State} {w : Nat} {i : Instr} (h : decodeTableWord 8 w = some i) :
    step (s.withFetchWord 8 w) = exec i s := by
  obtain ⟨hw, hdec⟩ := decodeTableWord_eq_some h
  have hev : (s.withFetchWord 8 w).events = .write 0x000 (BitVec.ofNat 8 w) :: s.events := by
    rw [State.withFetchWord, Nat.mod_eq_of_lt (b := 2 ^ 8) hw, setEvents_events]
  exact (step_write_cmd hev).trans (writeCommand_of_ok _ hdec)

/-! STATUS (R39). -/

/-- The bits of STATUS that a host write can clear. -/
theorem getLsbD_errorMask (k : Nat) : (0x0E : Byte).getLsbD k = decide (1 ≤ k ∧ k ≤ 3) := by
  rcases Nat.lt_or_ge k 8 with hk | hk
  · revert k
    decide
  · rw [BitVec.getLsbD_of_ge _ _ hk, eq_comm, decide_eq_false_iff_not]
    omega

theorem getLsbD_clearErrors_status (d : Byte) (s : State) (k : Nat) :
    (clearErrors d s).status.getLsbD k = (s.status.getLsbD k && !(d.getLsbD k && decide (1 ≤ k ∧ k ≤ 3))) := by
  rw [clearErrors_status, BitVec.getLsbD_and, BitVec.getLsbD_not, BitVec.getLsbD_and, getLsbD_errorMask]
  rcases Nat.lt_or_ge k 8 with hk | hk
  · simp [hk]
  · simp [BitVec.getLsbD_of_ge s.status k hk]

/-! What is pending (R52). -/

/-- A turn of the engine leaves the pending events, since it does not look at them. -/
theorem engineStep_events {s t : State} (h : engineStep s = .next t) : t.events = s.events := by
  have hkeep : engineStep s = .next (setEvents s.events t) := engineStep_setEvents s.events h
  rw [Host.Outcome.next.inj (h.symm.trans hkeep), setEvents_events]

/-- So does a host write. -/
theorem WriteEffect.events {a : Address} {d : Byte} {s t : State} (h : WriteEffect a d s t) : t.events = s.events := by
  cases h with
  | gen => rw [startGen_frame]
  | errorBits | seed | cell | rast | load | draw => rfl

/-- Only a poll puts events in front of the others (spec/30_encoding.md R64). -/
theorem handleEvent_events {e : Event} {s t : State} (hpoll : e ≠ .waitIdle) (h : handleEvent e s = .next t) :
    t.events = s.events := by
  cases e with
  | read a =>
    obtain rfl := Host.Outcome.next.inj h
    rw [hostRead_frame]
  | write a d => exact (WriteEffect.of_hostWrite h).events
  | waitIdle => exact absurd rfl hpoll
  | engine => exact engineStep_events h
  | reset =>
    obtain rfl := Host.Outcome.next.inj h
    rfl

/-! A running command (R46). -/

/-- Bytes that agree outside bits 3:1 are equal once these bits are set. -/
theorem or_errorMask_congr {v w : Byte} (h : v &&& 0xF1 = w &&& 0xF1) : v ||| 0x0E = w ||| 0x0E := by
  have masked : ∀ u : Byte, u ||| 0x0E = (u &&& 0xF1) ||| 0x0E := by decide
  rw [masked v, masked w, h]

/-- While BUSY = 1 a host write moves the error bits of STATUS alone. -/
theorem WriteEffect.errorBits_of_busy {a : Address} {d : Byte} {s t : State} (h : WriteEffect a d s t)
    (hbusy : isBusy s = true) : ∃ v, t = { s with status := v } ∧ v ||| 0x0E = s.status ||| 0x0E := by
  cases h with
  | errorBits v hv => exact ⟨v, rfl, or_errorMask_congr hv⟩
  | seed _ hidle | cell _ _ _ _ hidle | gen _ _ _ hidle | rast _ _ hidle | load _ _ hidle | draw _ _ hidle =>
    rw [hidle] at hbusy
    cases hbusy

end Sys2Proof.Machine

/-! # The statements on the host port -/

namespace Sys2Proof.Machine

/-- Settles O17: both windows are open to reads while BUSY = 0. -/
theorem wallAndPixReads : Obligations.WallAndPixReads := by
  intro s a rest hidle hev
  have hread := step_read_open hev (.inl hidle)
  refine ⟨fun x y hx hy ha => ?_, fun r c hr hc ha => ?_⟩
  · rwa [locate_wall hx hy ha] at hread
  · rwa [locate_pix hr hc ha] at hread

/-- Settles O18, by what a store into WALL does to the cell and to every other byte. -/
theorem wallWriteStoresThreeBits : Obligations.WallWriteStoresThreeBits := by
  intro s a d rest x y hidle hev hx hy ha
  refine ⟨wallWrite x y (d.setWidth 3) (setEvents rest s), ?_, rfl, ?_, fun b hb => ?_⟩
  · rw [step_write_wall hev hx hy ha, whenIdle_idle (s := setEvents rest s) _ hidle]
  · exact (wallRead_wallWrite_same _ x y _).trans (BitVec.setWidth_eq_extractLsb' (by decide))
  · exact readByte_wallWrite_other _ x y _ (ne_of_ne_of_eq hb ha)

/-- Settles O24: of the effects of a step, a turn of the engine and reset are excluded, a read or a poll moves the record
alone, and a write the error bits alone. -/
theorem hostCannotDisturbARunningCommand : Obligations.HostCannotDisturbARunningCommand := by
  intro s t e rest hbusy hev hengine hreset hstep
  cases stepEffect_of_step hstep with
  | turn _ hturn =>
    rcases hturn with hnil | ⟨_, hcons⟩
    · cases hev.symm.trans hnil
    · cases hev.symm.trans hcons
      exact absurd rfl hengine
  | record => exact ⟨rfl, rfl⟩
  | write a d rest' _ heff =>
    obtain ⟨v, rfl, hv⟩ := heff.errorBits_of_busy hbusy
    exact ⟨rfl, hv⟩
  | reset _ hev' =>
    cases hev.symm.trans hev'
    exact absurd rfl hreset

/-- Settles O25: whatever a step handles leaves the events after it, but for the poll, which is expanded. -/
theorem eventsAreTakenInOrder : Obligations.EventsAreTakenInOrder := by
  intro s t hstep
  refine ⟨fun hev => ?_, fun e rest hev hpoll => ?_, fun rest hev => ?_⟩
  · rw [step_nil hev] at hstep
    exact (engineStep_events hstep).trans hev
  · rw [step_cons hev] at hstep
    exact handleEvent_events hpoll hstep
  · rw [step_cons hev] at hstep
    obtain rfl := Host.Outcome.next.inj hstep
    exact ⟨rfl, rfl⟩

/-- Settles O3. -/
theorem stepRunsTheDecodedCommand : Obligations.StepRunsTheDecodedCommand := by
  refine ⟨fun s rest d i hev hdec => ?_, fun s rest d e hev hdec => ?_, fun s rest hev => ?_,
    fun s w i => step_withFetchWord⟩
  · exact (step_write_cmd hev).trans (writeCommand_of_ok _ hdec)
  · exact (step_write_cmd hev).trans (writeCommand_of_error _ hdec)
  · exact step_read_open hev (.inr rfl)

/-- Settles O9. -/
theorem commandsAreRejectedWhileBusy : Obligations.CommandsAreRejectedWhileBusy :=
  ⟨fun i _ hbusy => exec_busy i hbusy, fun s rest _ hev hbusy =>
    (step_write_cmd hev).trans (writeCommand_busy (s := setEvents rest s) hbusy)⟩

/-- Settles O15: BUSY hides STATUS from no read, and a write clears errors bit by bit. -/
theorem statusReadsAndClears : Obligations.StatusReadsAndClears := by
  intro s rest
  refine ⟨fun hev => step_read_open hev (.inr rfl), fun d hev => ?_⟩
  exact ⟨clearErrors d (setEvents rest s), step_cons hev, rfl, getLsbD_clearErrors_status d _⟩

/-- Settles O19. -/
theorem unmappedAddresses : Obligations.UnmappedAddresses := by
  intro s a rest ha
  have hloc : locate a = .unmapped := locate_eq_unmapped ha
  refine ⟨fun hev => ?_, fun d hev => step_write_ignored hev (by rw [hloc]; rfl)⟩
  have hread := step_read_open hev (.inr (by rw [hloc]; rfl))
  rwa [hloc] at hread

/-- Settles O20. -/
theorem seedAccess : Obligations.SeedAccess := by
  intro s rest
  refine ⟨fun hidle => ⟨fun hev => ?_, fun d hev => ?_⟩, fun hbusy => ⟨fun hev => ?_, fun d hev => ?_⟩⟩
  · exact step_read_open hev (.inl hidle)
  · exact (step_write_seed hev).trans (whenIdle_idle (s := setEvents rest s) _ hidle)
  · exact step_read_hidden hev hbusy rfl
  · exact (step_write_seed hev).trans (whenIdle_busy (s := setEvents rest s) _ hbusy)

/-- Settles O21. -/
theorem generatorRegistersAtThePort : Obligations.GeneratorRegistersAtThePort := by
  intro s rest
  refine ⟨fun hidle => ⟨fun hev => ?_, fun hev => ?_, fun hev => ?_⟩, fun a d hev ha => ?_⟩
  · exact step_read_open hev (.inl hidle)
  · exact step_read_open hev (.inl hidle)
  · exact step_read_open hev (.inl hidle)
  · rcases ha with rfl | rfl | rfl <;> exact step_write_ignored hev rfl

/-- Settles O22. -/
theorem pixWritesAreIgnored : Obligations.PixWritesAreIgnored := by
  intro s a d rest hev hlo hhi
  obtain ⟨r, c, hloc⟩ := exists_locate_eq_pix hlo hhi
  exact step_write_ignored hev (by rw [hloc]; rfl)

/-- Settles O23. -/
theorem hiddenReadsWhileBusy : Obligations.HiddenReadsWhileBusy :=
  fun _ a _ hbusy hev ha => step_read_hidden hev hbusy ((hiddenWhileBusy_locate_iff a).mpr ha)

end Sys2Proof.Machine

/-! # The opcode map (spec/30_encoding.md R57, R59, R60)

`encode` lists the command bytes, all of them below 6, and `decodeCommand` is its inverse. So no byte of 6 or more decodes. -/

namespace Sys2Proof.Machine

/-- The command bytes are 0x00 to 0x05. -/
theorem encode_toNat_lt (i : Instr) : (encode i).toNat < 6 := by
  cases i <;> decide

/-- The bytes from 6 on are reserved (R60). -/
theorem exists_decodeCommand_eq_error {d : Byte} (hd : 6 ≤ d.toNat) : ∃ e, decodeCommand d = .error e := by
  cases hdec : decodeCommand d with
  | error e => exact ⟨e, rfl⟩
  | ok i =>
    obtain rfl := eq_encode_of_decodeCommand hdec
    exact absurd hd (encode_toNat_lt i).not_ge

/-- On a number of one byte the table's decoder is the decoder of command bytes. -/
theorem decodeTableWord_toNat (d : Byte) : decodeTableWord 8 d.toNat = (decodeCommand d).toOption := by
  rw [decodeTableWord, if_pos ⟨rfl, d.isLt⟩, BitVec.ofNat_toNat, BitVec.setWidth_eq]

theorem decodeTableWord_encode (i : Instr) : decodeTableWord 8 (encode i).toNat = some i := by
  rw [decodeTableWord_toNat, decodeCommand_encode]
  rfl

/-- The model's lemmas on the fields of each command's byte, for any command. -/
theorem encodedFields (i : Instr) : Laws.EncodedFields.Statement i := by
  cases i with
  | nop => exact Laws.EncodedFields.nop
  | gen => exact Laws.EncodedFields.gen
  | rast => exact Laws.EncodedFields.rast
  | genrast => exact Laws.EncodedFields.genrast
  | lfsrLoad => exact Laws.EncodedFields.lfsrLoad
  | lfsrNext => exact Laws.EncodedFields.lfsrNext

/-- A command's byte is well formed as the command is. -/
theorem wellFormedByte_encode (i : Instr) : wellFormedByte (encode i) = i.wellFormed := by
  obtain ⟨_, _, hwf⟩ := encodedFields i
  exact hwf

/-- Settles O1: the six bytes are the encodings of the six commands, and no other byte decodes. -/
theorem decodeMatchesTheOpcodeMap : Obligations.DecodeMatchesTheOpcodeMap := by
  refine ⟨⟨?_, ?_, ?_, ?_, ?_, ?_⟩, fun d => exists_decodeCommand_eq_error⟩
  · exact decodeCommand_encode .nop
  · exact decodeCommand_encode .gen
  · exact decodeCommand_encode .rast
  · exact decodeCommand_encode .genrast
  · exact decodeCommand_encode .lfsrLoad
  · exact decodeCommand_encode .lfsrNext

/-- Settles O2. -/
theorem decodeAndEncodeAgree : Obligations.DecodeAndEncodeAgree := by
  refine ⟨fun i hwf => ⟨decodeCommand_encode i, decodeTableWord_encode i, ?_⟩, fun d i hdec => ?_⟩
  · exact (wellFormedByte_encode i).trans hwf
  · exact (eq_encode_of_decodeCommand hdec).symm

end Sys2Proof.Machine

/-! # The commands LFSR_LOAD and LFSR_NEXT (spec/40_direction_generator.md R68, R69) -/

namespace Sys2Proof.Machine

/-- Settles O5. -/
theorem lfsrLoadSeedsTheGenerator : Obligations.LfsrLoadSeedsTheGenerator := by
  refine ⟨rfl, fun s => ⟨fun hidle => ?_, fun hbusy => exec_busy .lfsrLoad hbusy⟩⟩
  exact (exec_lfsrLoad s).trans (whenIdle_idle _ hidle)

/-- The whole state after a draw, its registers written as bits side by side (R65). -/
theorem nextDirection_eq (s : State) :
    nextDirection s = { s with
      sr := s.sr.extractLsb' 0 7 ++ insertedBit s.sr, pb := insertedBit s.sr, dir := s.pb ++ insertedBit s.sr } := by
  rw [← shiftedSr_eq_append, ← nextDirection_dir_append]
  rfl

/-- Settles O6. -/
theorem lfsrNextDrawsOneCode : Obligations.LfsrNextDrawsOneCode := by
  refine ⟨rfl, fun s r2 hr2 => ⟨fun hidle => ?_, fun hbusy => exec_busy .lfsrNext hbusy⟩⟩
  obtain rfl : r2 = insertedBit s.sr := hr2
  rw [exec_lfsrNext, whenIdle_idle _ hidle, nextDirection_eq]

end Sys2Proof.Machine

/-! # The cycles of SR (R70)

Four values lie on cycles of four different lengths. The least period is the same all along a cycle, so the four cycles are
disjoint; their lengths add up to 256, so they hold every value. -/

namespace Sys2Proof.Machine

open Function

/-! The inverse. -/

/-- The value a draw came from: its low seven bits are the new bits 7:1, and its bit 7 comes back from the inserted bit. -/
theorem unshift_shiftedSr (v : Byte) :
    (~~~(shiftedSr v).extractLsb' 0 1 ^^^ (shiftedSr v).extractLsb' 5 1) ++ (shiftedSr v).extractLsb' 1 7 = v := by
  revert v; decide

theorem shiftedSr_injective : Injective shiftedSr := fun v w h => by
  rw [← unshift_shiftedSr v, h, unshift_shiftedSr]

theorem shiftedSr_surjective : Surjective shiftedSr := Finite.surjective_of_injective shiftedSr_injective

theorem isFixedPt_shiftedSr_FF : IsFixedPt shiftedSr 0xFF := by decide

theorem shiftedSr_eq_FF_iff {v : Byte} : shiftedSr v = 0xFF ↔ v = 0xFF := by
  conv_lhs => rw [← isFixedPt_shiftedSr_FF.eq]
  exact shiftedSr_injective.eq_iff

/-! The four cycles and their least periods. -/

/-- The value R70 names on each cycle. -/
def cycleHead : Fin 4 → Byte
  | 0 => 0x00
  | 1 => 0x06
  | 2 => 0x1A
  | 3 => 0xFF

/-- The cycle's length (R70); `minimalPeriod_cycleHead` says that it is the least period. -/
def cycleLength : Fin 4 → Nat
  | 0 => 217
  | 1 => 31
  | 2 => 7
  | 3 => 1

/-- The run from 0x00, seen every 31 draws: each seventh of the cycle is a small computation. -/
theorem isPeriodicPt_shiftedSr_00 : IsPeriodicPt shiftedSr (31 * 7) 0x00 := by
  have h1 : shiftedSr^[31] 0x00 = 0xB9 := by decide
  have h2 : shiftedSr^[31] 0xB9 = 0x72 := by decide
  have h3 : shiftedSr^[31] 0x72 = 0x2E := by decide
  have h4 : shiftedSr^[31] 0x2E = 0xCB := by decide
  have h5 : shiftedSr^[31] 0xCB = 0xE5 := by decide
  have h6 : shiftedSr^[31] 0xE5 = 0x97 := by decide
  have h7 : shiftedSr^[31] 0x97 = 0x00 := by decide
  rw [IsPeriodicPt, iterate_mul]
  simp only [IsFixedPt, iterate_succ_apply (shiftedSr^[31]), iterate_zero_apply (shiftedSr^[31]),
    h1, h2, h3, h4, h5, h6, h7]

/-- 217 is 7 · 31, and the run from 0x00 is back after neither 7 nor 31 draws. -/
theorem minimalPeriod_shiftedSr_00 : minimalPeriod shiftedSr 0x00 = 217 := by
  have hdvd : minimalPeriod shiftedSr 0x00 ∣ 217 := isPeriodicPt_shiftedSr_00.minimalPeriod_dvd
  have h7 : ¬ minimalPeriod shiftedSr 0x00 ∣ 7 := mt isPeriodicPt_iff_minimalPeriod_dvd.mpr (by decide)
  have h31 : ¬ minimalPeriod shiftedSr 0x00 ∣ 31 := mt isPeriodicPt_iff_minimalPeriod_dvd.mpr (by decide)
  have hdivisors : ∀ d ∈ Nat.divisors 217, ¬ d ∣ 7 → ¬ d ∣ 31 → d = 217 := by decide
  exact hdivisors _ (Nat.mem_divisors.mpr ⟨hdvd, by decide⟩) h7 h31

theorem minimalPeriod_cycleHead (i : Fin 4) : minimalPeriod shiftedSr (cycleHead i) = cycleLength i := by
  have : Fact (Nat.Prime 31) := ⟨by norm_num⟩
  have : Fact (Nat.Prime 7) := ⟨by norm_num⟩
  match i with
  | 0 => exact minimalPeriod_shiftedSr_00
  | 1 => exact minimalPeriod_eq_prime (p := 31) (by decide) (by decide)
  | 2 => exact minimalPeriod_eq_prime (p := 7) (by decide) (by decide)
  | 3 => exact minimalPeriod_eq_one_iff_isFixedPt.mpr isFixedPt_shiftedSr_FF

/-- The run from a head is back after its cycle's length and not before. -/
theorem iterate_cycleLength_cycleHead (i : Fin 4) : shiftedSr^[cycleLength i] (cycleHead i) = cycleHead i ∧
    ∀ k, 0 < k → k < cycleLength i → shiftedSr^[k] (cycleHead i) ≠ cycleHead i := by
  rw [← minimalPeriod_cycleHead]
  exact ⟨iterate_minimalPeriod, fun k hpos hlt => not_isPeriodicPt_of_pos_of_lt_minimalPeriod hpos.ne' hlt⟩

/-! The cycles as sets. -/

/-- The values of cycle `i`: the run from its head over the cycle's length. -/
def cycle (i : Fin 4) : Finset Byte := (Finset.range (cycleLength i)).image (shiftedSr^[·] (cycleHead i))

theorem mem_cycle {i : Fin 4} {v : Byte} : v ∈ cycle i ↔ ∃ k, k < cycleLength i ∧ v = shiftedSr^[k] (cycleHead i) := by
  simp [cycle, eq_comm]

theorem card_cycle (i : Fin 4) : (cycle i).card = cycleLength i := by
  have hinj : Set.InjOn (shiftedSr^[·] (cycleHead i)) (Finset.range (cycleLength i)) := by
    simpa [minimalPeriod_cycleHead] using iterate_injOn_Iio_minimalPeriod (f := shiftedSr) (x := cycleHead i)
  rw [cycle, Finset.card_image_of_injOn hinj, Finset.card_range]

theorem minimalPeriod_of_mem_cycle {i : Fin 4} {v : Byte} (h : v ∈ cycle i) :
    minimalPeriod shiftedSr v = cycleLength i := by
  obtain ⟨k, hk, rfl⟩ := mem_cycle.mp h
  rw [← minimalPeriod_cycleHead] at hk ⊢
  exact minimalPeriod_apply_iterate (minimalPeriod_pos_iff_mem_periodicPts.mp (Nat.zero_lt_of_lt hk)) k

theorem cycleLength_injective : Injective cycleLength := by decide

theorem disjoint_cycle {i j : Fin 4} (h : i ≠ j) : Disjoint (cycle i) (cycle j) :=
  Finset.disjoint_left.mpr fun _ hi hj =>
    h (cycleLength_injective ((minimalPeriod_of_mem_cycle hi).symm.trans (minimalPeriod_of_mem_cycle hj)))

/-- Every value lies on one of the four cycles. -/
theorem exists_mem_cycle (v : Byte) : ∃ i, v ∈ cycle i := by
  have hcard : (Finset.univ.biUnion cycle).card = Fintype.card Byte :=
    calc (Finset.univ.biUnion cycle).card
      _ = ∑ i, (cycle i).card := Finset.card_biUnion fun _ _ _ _ => disjoint_cycle
      _ = ∑ i, cycleLength i := Finset.sum_congr rfl fun i _ => card_cycle i
      _ = FinEnum.card Byte := by decide
      _ = Fintype.card Byte := FinEnum.card_eq_fintypeCard
  have hv : v ∈ Finset.univ.biUnion cycle := Finset.eq_univ_of_card _ hcard ▸ Finset.mem_univ v
  obtain ⟨i, -, hi⟩ := Finset.mem_biUnion.mp hv
  exact ⟨i, hi⟩

theorem mem_cycle_cases (v : Byte) : v ∈ cycle 0 ∨ v ∈ cycle 1 ∨ v ∈ cycle 2 ∨ v ∈ cycle 3 := by
  obtain ⟨i, hi⟩ := exists_mem_cycle v
  obtain rfl | rfl | rfl | rfl : i = 0 ∨ i = 1 ∨ i = 2 ∨ i = 3 := by omega
  · exact .inl hi
  · exact .inr (.inl hi)
  · exact .inr (.inr (.inl hi))
  · exact .inr (.inr (.inr hi))

theorem eq_FF_of_mem_cycle {v : Byte} (h : v ∈ cycle 3) : v = 0xFF := by
  obtain ⟨k, -, rfl⟩ := mem_cycle.mp h
  exact isFixedPt_shiftedSr_FF.iterate k

/-- Settles O32: the draw is injective on a finite type, and four cycles of the given lengths hold all values. -/
theorem shiftRegisterCycles : Obligations.ShiftRegisterCycles :=
  ⟨unshift_shiftedSr, shiftedSr_surjective, fun _ => shiftedSr_eq_FF_iff,
    fun v => (mem_cycle_cases v).imp mem_cycle.mp (.imp mem_cycle.mp (.imp mem_cycle.mp eq_FF_of_mem_cycle)),
    iterate_cycleLength_cycleHead 0, iterate_cycleLength_cycleHead 1, iterate_cycleLength_cycleHead 2,
    1, by decide, by decide⟩

end Sys2Proof.Machine

/-! # Runs of one code (R71)

Where PB is bit 0 of SR, DIR after a draw is the low two bits of SR, and later draws move them up: SR holds the codes of the
last seven draws. Seven codes 3 in a row would make SR 0xFF, and then it was 0xFF at the start (R70); seven codes 0 make SR
0x00, whose next draw inserts a 1. -/

namespace Sys2Proof.Machine

open Function

theorem iterate_nextDirection_sr (k : Nat) (s : State) : (nextDirection^[k] s).sr = shiftedSr^[k] s.sr :=
  Semiconj.iterate_right nextDirection_sr k s

theorem iterate_nextDirection_sr_eq_FF_iff (k : Nat) (s : State) : (nextDirection^[k] s).sr = 0xFF ↔ s.sr = 0xFF := by
  rw [iterate_nextDirection_sr]
  induction k with
  | zero => rfl
  | succ k ih => rw [iterate_succ_apply', shiftedSr_eq_FF_iff, ih]

/-- The low bit of a code is the bit its draw inserts, and the high bit is PB from before (R65 step 4). -/
theorem nextDirection_dir_low (s : State) : (nextDirection s).dir.extractLsb' 0 1 = insertedBit s.sr := by
  rw [nextDirection_dir_append]
  exact BitVec.extractLsb'_append_eq_right

theorem nextDirection_dir_high (s : State) : (nextDirection s).dir.extractLsb' 1 1 = s.pb := by
  rw [nextDirection_dir_append]
  exact BitVec.extractLsb'_append_eq_left

/-- A draw moves the bits of SR one place up (R65 step 3). -/
theorem extractLsb'_shiftedSr (v : Byte) {j n : Nat} (h : j + n ≤ 7) :
    (shiftedSr v).extractLsb' (j + 1) n = v.extractLsb' j n := by
  rw [shiftedSr_eq_append, BitVec.extractLsb'_append_eq_of_le (by omega), Nat.add_sub_cancel]
  exact BitVec.extractLsb'_extractLsb'_of_le h

/-! PB as bit 0 of SR. -/

theorem iterate_nextDirection_pb {s : State} (hpb : s.pb = s.sr.extractLsb' 0 1) (k : Nat) :
    (nextDirection^[k] s).pb = (nextDirection^[k] s).sr.extractLsb' 0 1 := by
  cases k with
  | zero => exact hpb
  | succ k => rw [iterate_succ_apply', nextDirection_pb_eq_bit0]

theorem nextDirection_dir_eq_low_bits {s : State} (hpb : s.pb = s.sr.extractLsb' 0 1) :
    (nextDirection s).dir = (nextDirection s).sr.extractLsb' 0 2 := by
  rw [nextDirection_dir_append, hpb, ← insertedBit_eq_bit0, ← extractLsb'_shiftedSr _ (by decide)]
  exact BitVec.extractLsb'_append_extractLsb'_eq_extractLsb' rfl

/-- The code drawn `j` draws ago stands in bits j+1:j of SR. -/
theorem extractLsb'_sr_eq_dir {s : State} (hpb : s.pb = s.sr.extractLsb' 0 1) (k : Nat) {j : Nat} (hj : j ≤ 6) :
    (nextDirection^[k + 1 + j] s).sr.extractLsb' j 2 = (nextDirection^[k + 1] s).dir := by
  induction j with
  | zero =>
    rw [Nat.add_zero, iterate_succ_apply']
    exact (nextDirection_dir_eq_low_bits (iterate_nextDirection_pb hpb k)).symm
  | succ j ih =>
    rw [← Nat.add_assoc, iterate_succ_apply', nextDirection_sr, extractLsb'_shiftedSr _ (by omega), ih (by omega)]

theorem eq_append_extractLsb' (v : Byte) :
    v = v.extractLsb' 6 2 ++ (v.extractLsb' 4 2 ++ (v.extractLsb' 2 2 ++ v.extractLsb' 0 2)) := by
  revert v; decide

/-- SR after seven draws is the codes of draws 1, 3, 5 and 7 side by side. -/
theorem iterate_seven_nextDirection_sr {s : State} (hpb : s.pb = s.sr.extractLsb' 0 1) :
    (nextDirection^[7] s).sr = (nextDirection^[1] s).dir ++ ((nextDirection^[3] s).dir ++
      ((nextDirection^[5] s).dir ++ (nextDirection^[7] s).dir)) := by
  rw [eq_append_extractLsb' (nextDirection^[7] s).sr, extractLsb'_sr_eq_dir hpb 0 (j := 6) le_rfl,
    extractLsb'_sr_eq_dir hpb 2 (j := 4) (by decide), extractLsb'_sr_eq_dir hpb 4 (j := 2) (by decide),
    extractLsb'_sr_eq_dir hpb 6 (j := 0) (by decide)]

/-! The bounds. -/

theorem exists_dir_ne_three {s : State} (hsr : s.sr ≠ 0xFF) (hpb : s.pb = s.sr.extractLsb' 0 1) :
    ∃ k, 1 ≤ k ∧ k ≤ 7 ∧ (nextDirection^[k] s).dir ≠ 3 := by
  by_contra! hrun
  have hones : (nextDirection^[7] s).sr = 0xFF := by
    rw [iterate_seven_nextDirection_sr hpb, hrun 1, hrun 3, hrun 5, hrun 7] <;> decide
  exact hsr ((iterate_nextDirection_sr_eq_FF_iff 7 s).mp hones)

theorem exists_dir_ne_zero {s : State} (hpb : s.pb = s.sr.extractLsb' 0 1) :
    ∃ k, 1 ≤ k ∧ k ≤ 8 ∧ (nextDirection^[k] s).dir ≠ 0 := by
  by_contra! hrun
  have hzeros : (nextDirection^[7] s).sr = 0x00 := by
    rw [iterate_seven_nextDirection_sr hpb, hrun 1, hrun 3, hrun 5, hrun 7] <;> decide
  have hlow : (nextDirection^[8] s).dir.extractLsb' 0 1 = 1 := by
    rw [iterate_succ_apply', nextDirection_dir_low, hzeros]
    decide
  rw [hrun 8 (by decide) (by decide)] at hlow
  exact absurd hlow (by decide)

/-- A bound on the draws after the first is a bound, one higher, on all of them. -/
theorem exists_dir_ne_of_nextDirection {s : State} {c : BitVec 2} {n : Nat}
    (h : ∃ k, 1 ≤ k ∧ k ≤ n ∧ (nextDirection^[k] (nextDirection s)).dir ≠ c) :
    ∃ k, 1 ≤ k ∧ k ≤ n + 1 ∧ (nextDirection^[k] s).dir ≠ c := by
  obtain ⟨k, -, hle, hne⟩ := h
  exact ⟨k + 1, Nat.le_add_left 1 k, Nat.succ_le_succ hle, hne⟩

/-! The fixed point. -/

theorem iterate_nextDirection_fixed {s : State} (hsr : s.sr = 0xFF) (hpb : s.pb = 1) (k : Nat) :
    (nextDirection^[k] s).sr = 0xFF ∧ (nextDirection^[k] s).pb = 1 := by
  have hbit : s.pb = s.sr.extractLsb' 0 1 := by rw [hpb, hsr]; decide
  have hones : (nextDirection^[k] s).sr = 0xFF := (iterate_nextDirection_sr_eq_FF_iff k s).mpr hsr
  refine ⟨hones, ?_⟩
  rw [iterate_nextDirection_pb hbit, hones]
  decide

theorem iterate_nextDirection_dir_fixed {s : State} (hsr : s.sr = 0xFF) (hpb : s.pb = 1) {k : Nat} (hk : 1 ≤ k) :
    (nextDirection^[k] s).dir = 3 := by
  obtain ⟨k, rfl⟩ := Nat.exists_eq_add_of_le' hk
  obtain ⟨hsr', hpb'⟩ := iterate_nextDirection_fixed hsr hpb k
  rw [iterate_succ_apply', nextDirection_dir_append, hsr', hpb']
  decide

/-- Settles O33: a state with any PB has made PB bit 0 of SR after one draw. -/
theorem runsOfOneCodeAreBounded : Obligations.RunsOfOneCodeAreBounded := by
  refine ⟨fun s => ?_, fun s hsr => ?_, fun s hsr hpb => ⟨exists_dir_ne_zero hpb, exists_dir_ne_three hsr hpb⟩,
    fun s k hsr hpb hk => iterate_nextDirection_dir_fixed hsr hpb hk⟩
  · rw [nextDirection_dir_high, nextDirection_dir_low, nextDirection_pb]
  · have hpb := nextDirection_pb_eq_bit0 s
    have hsr' : (nextDirection s).sr ≠ 0xFF := mt shiftedSr_eq_FF_iff.mp hsr
    exact ⟨exists_dir_ne_of_nextDirection (exists_dir_ne_zero hpb),
      exists_dir_ne_of_nextDirection (exists_dir_ne_three hsr' hpb)⟩

end Sys2Proof.Machine

/-! # The walls during a walk

Where the walk stands, which edges its cell has, and what the mark and the carve of one pass do to every cell. -/

namespace Sys2Proof.Machine

/-! Where the walk stands. -/

/-- The cursor is on cell (x, y) of the carvable region (spec/10_state.md R29). -/
structure CursorAt (s : State) (x y : Nat) : Prop where
  x_eq : s.x = x
  y_eq : s.y = y
  x_le : x ≤ 16
  y_le : y ≤ 7

theorem exists_cursorAt {s : State} (h : inRegion s.x s.y = true) : ∃ x y, CursorAt s x y := by
  have hpos := inRegion_iff.mp h
  exact ⟨s.x.toNat, s.y.toNat, by omega, by omega, by omega, by omega⟩

namespace CursorAt

variable {s : State} {x y : Nat}

theorem x_toNat (h : CursorAt s x y) : s.x.toNat = x := by rw [h.x_eq, Int.toNat_natCast]

theorem y_toNat (h : CursorAt s x y) : s.y.toNat = y := by rw [h.y_eq, Int.toNat_natCast]

theorem inRegion (h : CursorAt s x y) : inRegion s.x s.y = true := by
  have hx := h.x_le
  have hy := h.y_le
  rw [inRegion_iff, h.x_eq, h.y_eq]
  omega

end CursorAt

theorem isPole_of_not_inRegion (s : State) {x y : Int} (h : inRegion x y = false) : isPole s x y = true := by
  rw [isPole, h]
  rfl

/-- In the region a pole is a visited cell (spec/41_maze_carver.md R75). -/
theorem isPole_eq_visited (s : State) {x y : Nat} (hx : x ≤ 16) (hy : y ≤ 7) : isPole s x y = visited s x y := by
  have hreg : inRegion (x : Int) (y : Int) = true := by rw [inRegion_iff]; omega
  simp [isPole, hreg, visited]

/-! Edges (spec/10_state.md R26). -/

/-- The edges on side `d` of (x, y) and on side `d'` of (x', y') are one: the same bit of the same cell. -/
def sameEdge (x y : Nat) (d : Direction) (x' y' : Nat) (d' : Direction) : Prop :=
  edgeOwner x' y' d' = edgeOwner x y d ∧ edgeBit d' = edgeBit d

/-- The way back. -/
def opposite : Direction → Direction
  | .up => .down
  | .right => .left
  | .down => .up
  | .left => .right

/-- An edge has two sides: the cell it is taken from, and the neighbour, which sees it in the opposite direction. -/
theorem sameEdge_iff {x y x' y' : Nat} {d d' : Direction} : sameEdge x y d x' y' d' ↔
    (x' = x ∧ y' = y ∧ d' = d) ∨
    ((x' : Int) = x + (offsetOf d).1 ∧ (y' : Int) = y + (offsetOf d).2 ∧ d' = opposite d) := by
  cases d <;> cases d' <;>
    simp only [sameEdge, edgeOwner, edgeBit, offsetOf, opposite, Prod.mk.injEq, reduceCtorEq, and_false, and_true,
      or_false, false_or, OfNat.ofNat_ne_one, OfNat.one_ne_ofNat] <;> omega

/-! Arrays. -/

/-- Two states hold the same WALL and PIX. -/
def sameArrays (s t : State) : Prop := t.mem = s.mem ∧ t.epoch = s.epoch

namespace sameArrays

variable {s t : State}

theorem readByte (h : sameArrays s t) (a : Nat) : readByte t a = readByte s a := readByte_congr h.1 h.2 a

theorem wallRead (h : sameArrays s t) (x y : Nat) : wallRead t x y = wallRead s x y := wallRead_congr h.1 h.2 x y

theorem visited (h : sameArrays s t) (x y : Nat) : visited t x y = visited s x y :=
  congrArg (BitVec.getLsbD · 0) (h.wallRead x y)

theorem isBlocked (h : sameArrays s t) (x y : Nat) (d : Direction) : isBlocked t x y d = isBlocked s x y d :=
  isBlocked_congr h.1 h.2 x y d

end sameArrays

theorem sameArrays_advanceScan (s : State) : sameArrays s (advanceScan s) := ⟨advanceScan_mem s, advanceScan_epoch s⟩

theorem sameArrays_finishGen (s : State) : sameArrays s (finishGen s) := by
  rcases finishGen_cases s with ⟨-, h⟩ | ⟨-, h⟩ <;> rw [h] <;> exact ⟨rfl, rfl⟩

/-- The bits of every cell after a store of bits into one. -/
theorem wallRead_wallOr (s : State) {x y x' y' : Nat} (v : WallCell) (hx : x ≤ 17) (hx' : x' ≤ 17) :
    wallRead (wallOr x y v s) x' y' = wallRead s x' y' ||| if x' = x ∧ y' = y then v else 0 := by
  split_ifs with h
  · rw [h.1, h.2, wallRead_wallOr_same]
  · rw [wallRead_wallOr_other s v hx hx' h]
    exact BitVec.or_zero.symm

theorem getLsbD_ite_zero {p : Prop} [Decidable p] (v : WallCell) (k : Nat) :
    (if p then v else 0).getLsbD k = (decide p && v.getLsbD k) := by
  split_ifs with h <;> simp [h]

theorem getLsbD_visitedMask (k : Nat) : (1 : WallCell).getLsbD k = decide (k = 0) := by
  rcases Nat.eq_zero_or_pos k with rfl | hk
  · rfl
  · simp [hk.ne']

/-- The mask of an edge is its bit alone. -/
theorem getLsbD_edgeMask (d : Direction) (k : Nat) : (edgeMask d).getLsbD k = decide (k = edgeBit d) := by
  rcases Nat.lt_or_ge k 3 with hk | hk
  · revert k
    cases d <;> decide
  · rw [BitVec.getLsbD_of_ge _ _ hk, eq_comm, decide_eq_false_iff_not]
    cases d <;> simp only [edgeBit] <;> omega

/-! The mark (R77). -/

section
variable {s : State} {x y x' y' : Nat}

theorem wallRead_drawn (h : CursorAt s x y) (hx' : x' ≤ 17) :
    wallRead (drawn s) x' y' = wallRead s x' y' ||| if x' = x ∧ y' = y then 1 else 0 := by
  rw [← wallRead_wallOr s 1 (Nat.le_succ_of_le h.x_le) hx', ← h.x_toNat, ← h.y_toNat]
  rfl

theorem readByte_drawn_other (h : CursorAt s x y) {b : Nat} (hb : b ≠ wallAddr x y) :
    readByte (drawn s) b = readByte s b := by
  rw [← readByte_wallOr_other s x y 1 hb, ← h.x_toNat, ← h.y_toNat]
  rfl

theorem visited_drawn (h : CursorAt s x y) (hx' : x' ≤ 17) :
    visited (drawn s) x' y' = (visited s x' y' || decide (x' = x ∧ y' = y)) := by
  rw [visited, wallRead_drawn h hx', BitVec.getLsbD_or, getLsbD_ite_zero, getLsbD_visitedMask, decide_eq_true (rfl : 0 = 0),
    Bool.and_true]
  rfl

theorem visited_drawn_cursor (h : CursorAt s x y) : visited (drawn s) x y = true := by
  rw [visited_drawn h (Nat.le_succ_of_le h.x_le), decide_eq_true ⟨rfl, rfl⟩, Bool.or_true]

/-- The mark is no edge bit. -/
theorem getLsbD_wallRead_drawn (h : CursorAt s x y) (hx' : x' ≤ 17) {k : Nat} (hk : k ≠ 0) :
    (wallRead (drawn s) x' y').getLsbD k = (wallRead s x' y').getLsbD k := by
  rw [wallRead_drawn h hx', BitVec.getLsbD_or, getLsbD_ite_zero, getLsbD_visitedMask, decide_eq_false hk,
    Bool.and_false, Bool.or_false]

theorem edgeBit_ne_zero (d : Direction) : edgeBit d ≠ 0 := by cases d <;> decide

theorem isBlocked_drawn (h : CursorAt s x y) (hx' : x' ≤ 16) (hy' : y' ≤ 7) (d : Direction) :
    isBlocked (drawn s) x' y' d = isBlocked s x' y' d := by
  rw [isBlocked_eq _ d hx' hy', isBlocked_eq _ d hx' hy',
    getLsbD_wallRead_drawn h (edgeOwner_inGrid d hx' hy').1 (edgeBit_ne_zero d)]

/-! The carve (R79). -/

/-- The state after an open draw, before the test for a pole. -/
def afterCarve (s : State) : State := carved (drawnDirection s) (drawn s)

/-- An open draw draws, carves, and moves the cursor; the rest of the state is kept. -/
theorem afterCarve_frame (s : State) :
    afterCarve s = { s with
      sr := shiftedSr s.sr, pb := insertedBit s.sr, dir := (nextDirection s).dir, mem := (afterCarve s).mem,
      x := s.x + (offsetOf (drawnDirection s)).1, y := s.y + (offsetOf (drawnDirection s)).2, retry := 0 } := by
  rw [afterCarve, carved_frame, drawn_frame]

@[simp] theorem afterCarve_sr (s : State) : (afterCarve s).sr = shiftedSr s.sr := by rw [afterCarve_frame]
@[simp] theorem afterCarve_pb (s : State) : (afterCarve s).pb = insertedBit s.sr := by rw [afterCarve_frame]
@[simp] theorem afterCarve_dir (s : State) : (afterCarve s).dir = (nextDirection s).dir := by rw [afterCarve_frame]
@[simp] theorem afterCarve_fsm (s : State) : (afterCarve s).fsm = s.fsm := by rw [afterCarve_frame]
@[simp] theorem afterCarve_x (s : State) : (afterCarve s).x = s.x + (offsetOf (drawnDirection s)).1 := by
  rw [afterCarve_frame]
@[simp] theorem afterCarve_y (s : State) : (afterCarve s).y = s.y + (offsetOf (drawnDirection s)).2 := by
  rw [afterCarve_frame]
@[simp] theorem afterCarve_cx (s : State) : (afterCarve s).cx = s.cx := by rw [afterCarve_frame]
@[simp] theorem afterCarve_cy (s : State) : (afterCarve s).cy = s.cy := by rw [afterCarve_frame]
@[simp] theorem afterCarve_scanDone (s : State) : (afterCarve s).scanDone = s.scanDone := by rw [afterCarve_frame]
@[simp] theorem afterCarve_retry (s : State) : (afterCarve s).retry = 0 := by rw [afterCarve_frame]

theorem sameArrays_afterCarve (h : CursorAt s x y) : sameArrays
    (wallOr (edgeOwner x y (drawnDirection s)).1 (edgeOwner x y (drawnDirection s)).2 (edgeMask (drawnDirection s))
      (drawn s)) (afterCarve s) := by
  rw [← carveEdge_eq]
  refine ⟨?_, by rw [afterCarve_frame, carveEdge_epoch]; rfl⟩
  rw [← h.x_toNat, ← h.y_toNat]
  rfl

theorem wallRead_afterCarve (h : CursorAt s x y) (hx' : x' ≤ 17) :
    wallRead (afterCarve s) x' y' =
      wallRead s x' y' ||| (if x' = x ∧ y' = y then 1 else 0) |||
        (if x' = (edgeOwner x y (drawnDirection s)).1 ∧ y' = (edgeOwner x y (drawnDirection s)).2
          then edgeMask (drawnDirection s) else 0) := by
  rw [(sameArrays_afterCarve h).wallRead, wallRead_wallOr _ _ (edgeOwner_inGrid _ h.x_le h.y_le).1 hx', wallRead_drawn h hx']

theorem readByte_afterCarve_other (h : CursorAt s x y) {b : Nat} (hb : b ≠ wallAddr x y)
    (hb' : b ≠ wallAddr (edgeOwner x y (drawnDirection s)).1 (edgeOwner x y (drawnDirection s)).2) :
    readByte (afterCarve s) b = readByte s b := by
  rw [(sameArrays_afterCarve h).readByte, readByte_wallOr_other _ _ _ _ hb', readByte_drawn_other h hb]

/-- Bit `k` of a cell after an open draw. -/
theorem getLsbD_wallRead_afterCarve (h : CursorAt s x y) (hx' : x' ≤ 17) (k : Nat) :
    (wallRead (afterCarve s) x' y').getLsbD k = true ↔
      (wallRead s x' y').getLsbD k = true ∨ (x' = x ∧ y' = y ∧ k = 0) ∨
      ((x', y') = edgeOwner x y (drawnDirection s) ∧ k = edgeBit (drawnDirection s)) := by
  rw [wallRead_afterCarve h hx', BitVec.getLsbD_or, BitVec.getLsbD_or, getLsbD_ite_zero, getLsbD_ite_zero,
    getLsbD_visitedMask, getLsbD_edgeMask, Prod.ext_iff]
  simp only [Bool.or_eq_true, Bool.and_eq_true, decide_eq_true_eq, or_assoc, and_assoc]

theorem visited_afterCarve (h : CursorAt s x y) (hx' : x' ≤ 17) :
    visited (afterCarve s) x' y' = (visited s x' y' || decide (x' = x ∧ y' = y)) := by
  have hne := edgeBit_ne_zero (drawnDirection s)
  rw [Bool.eq_iff_iff, visited, getLsbD_wallRead_afterCarve h hx']
  simp [visited, hne.symm]

theorem visited_afterCarve_cursor (h : CursorAt s x y) : visited (afterCarve s) x y = true := by
  rw [visited_afterCarve h (Nat.le_succ_of_le h.x_le), decide_eq_true ⟨rfl, rfl⟩, Bool.or_true]

theorem isBlocked_afterCarve (h : CursorAt s x y) (hx' : x' ≤ 16) (hy' : y' ≤ 7) (d : Direction) :
    isBlocked (afterCarve s) x' y' d = true ↔ isBlocked s x' y' d = true ∨ sameEdge x y (drawnDirection s) x' y' d := by
  have hne := edgeBit_ne_zero d
  rw [isBlocked_eq _ d hx' hy', isBlocked_eq _ d hx' hy',
    getLsbD_wallRead_afterCarve h (edgeOwner_inGrid d hx' hy').1, sameEdge]
  simp [hne]

/-- The cursor leaves its cell, for the neighbour in the direction drawn (R61). -/
theorem afterCarve_neighbour (h : CursorAt s x y) (h' : CursorAt (afterCarve s) x' y') :
    (x' : Int) = x + (offsetOf (drawnDirection s)).1 ∧ (y' : Int) = y + (offsetOf (drawnDirection s)).2 ∧
      ¬ (x' = x ∧ y' = y) := by
  have hx : (x' : Int) = x + (offsetOf (drawnDirection s)).1 := by rw [← h'.x_eq, ← h.x_eq, afterCarve_x]
  have hy : (y' : Int) = y + (offsetOf (drawnDirection s)).2 := by rw [← h'.y_eq, ← h.y_eq, afterCarve_y]
  refine ⟨hx, hy, ?_⟩
  revert hx hy
  cases drawnDirection s <;> simp only [offsetOf] <;> omega

theorem visited_afterCarve_neighbour (h : CursorAt s x y) (h' : CursorAt (afterCarve s) x' y') :
    visited (afterCarve s) x' y' = visited s x' y' := by
  rw [visited_afterCarve h (Nat.le_succ_of_le h'.x_le), decide_eq_false (afterCarve_neighbour h h').2.2, Bool.or_false]

/-- Whether the walk meets a pole shows before the carve: outside the region no cell is read, and inside it the carve changes
no visited bit but that of the cell left. -/
theorem isPole_afterCarve (h : CursorAt s x y) :
    isPole (afterCarve s) (afterCarve s).x (afterCarve s).y = isPole s (afterCarve s).x (afterCarve s).y := by
  cases hreg : inRegion (afterCarve s).x (afterCarve s).y
  · rw [isPole_of_not_inRegion _ hreg, isPole_of_not_inRegion _ hreg]
  · obtain ⟨x', y', h'⟩ := exists_cursorAt hreg
    rw [h'.x_eq, h'.y_eq, isPole_eq_visited _ h'.x_le h'.y_le, isPole_eq_visited _ h'.x_le h'.y_le,
      visited_afterCarve_neighbour h h']

/-! One pass (R77), in terms of the walls before it. -/

theorem walkPass_of_blocked (h : CursorAt s x y) (hblocked : isBlocked s x y (drawnDirection s) = true) :
    walkPass s = retryDraw (drawn s) := by
  rw [walkPass, h.x_toNat, h.y_toNat, isBlocked_drawn h h.x_le h.y_le, hblocked, if_pos rfl]

theorem walkPass_of_open (h : CursorAt s x y) (hopen : isBlocked s x y (drawnDirection s) = false) :
    walkPass s = if isPole s (afterCarve s).x (afterCarve s).y then advanceScan (afterCarve s) else afterCarve s := by
  rw [← isPole_afterCarve h, walkPass, h.x_toNat, h.y_toNat, isBlocked_drawn h h.x_le h.y_le, hopen,
    if_neg Bool.false_ne_true]
  rfl

end

end Sys2Proof.Machine

/-! # The turns of a running GEN

One turn of GEN_SCAN or GEN_WALK as a closed list (spec/41_maze_carver.md R81 items 2 and 3), and the induction over steps
that the invariants of a running GEN share. -/

namespace Sys2Proof.Machine

/-- What one turn of the engine does to a running GEN. -/
inductive GenTurn (s : State) : State → Prop
  | finished (hscan : s.fsm = .genScan) (hdone : s.scanDone = true) : GenTurn s (finishGen s)
  | skipped (hscan : s.fsm = .genScan) (hleft : s.scanDone = false) (hpole : visited s s.cx s.cy = true) :
      GenTurn s (advanceScan s)
  | started (hscan : s.fsm = .genScan) (hleft : s.scanDone = false) (hnew : visited s s.cx s.cy = false) :
      GenTurn s (startWalk s)
  | aborted {x y : Nat} (hwalk : s.fsm = .genWalk) (hcur : CursorAt s x y)
      (hblocked : isBlocked s x y (drawnDirection s) = true) (hcap : s.retry + 1 = Config.retryCap) :
      GenTurn s (abortGen { drawn s with retry := s.retry + 1 })
  | retried {x y : Nat} (hwalk : s.fsm = .genWalk) (hcur : CursorAt s x y)
      (hblocked : isBlocked s x y (drawnDirection s) = true) (hcap : s.retry + 1 ≠ Config.retryCap) :
      GenTurn s { drawn s with retry := s.retry + 1 }
  | ended {x y : Nat} (hwalk : s.fsm = .genWalk) (hcur : CursorAt s x y)
      (hopen : isBlocked s x y (drawnDirection s) = false)
      (hpole : ∀ x' y', CursorAt (afterCarve s) x' y' → visited s x' y' = true) : GenTurn s (advanceScan (afterCarve s))
  | moved {x y x' y' : Nat} (hwalk : s.fsm = .genWalk) (hcur : CursorAt s x y)
      (hopen : isBlocked s x y (drawnDirection s) = false) (hcur' : CursorAt (afterCarve s) x' y')
      (hnew : visited s x' y' = false) : GenTurn s (afterCarve s)

theorem genTurn_scanStep {s : State} (hinv : StateInv s) (hscan : s.fsm = .genScan) : GenTurn s (scanStep s) := by
  obtain ⟨hcx, hcy⟩ := hinv.candidate
  rcases scanStep_cases s with ⟨hdone, h⟩ | ⟨hleft, hpole, h⟩ | ⟨hleft, hopen, h⟩ <;> rw [h]
  · exact .finished hscan hdone
  · exact .skipped hscan hleft (isPole_eq_visited s hcx hcy ▸ hpole)
  · exact .started hscan hleft (isPole_eq_visited s hcx hcy ▸ hopen)

theorem genTurn_walkPass {s : State} (hinv : StateInv s) (hwalk : s.fsm = .genWalk) : GenTurn s (walkPass s) := by
  obtain ⟨x, y, hcur⟩ := exists_cursorAt (hinv.walking hwalk).1
  cases hdraw : isBlocked s x y (drawnDirection s) with
  | true =>
    rw [walkPass_of_blocked hcur hdraw]
    rcases retryDraw_cases (drawn s) with ⟨hcap, h⟩ | ⟨hcap, h⟩ <;> rw [h]
    · exact .aborted hwalk hcur hdraw hcap
    · exact .retried hwalk hcur hdraw hcap
  | false =>
    rw [walkPass_of_open hcur hdraw]
    cases hpole : isPole s (afterCarve s).x (afterCarve s).y with
    | true =>
      rw [if_pos rfl]
      refine .ended hwalk hcur hdraw fun x' y' hcur' => ?_
      rw [← isPole_eq_visited s hcur'.x_le hcur'.y_le, ← hcur'.x_eq, ← hcur'.y_eq, hpole]
    | false =>
      rw [if_neg Bool.false_ne_true]
      obtain ⟨x', y', hcur'⟩ := exists_cursorAt (not_isPole_iff.mp hpole).1
      refine .moved hwalk hcur hdraw hcur' ?_
      rw [← isPole_eq_visited s hcur'.x_le hcur'.y_le, ← hcur'.x_eq, ← hcur'.y_eq, hpole]

theorem StateInv.isBusy_of_inGen {s : State} (h : StateInv s) (hgen : inGen s) : isBusy s = true :=
  h.busy_iff.mpr (by rcases hgen with hf | hf <;> simp [hf])

/-- A turn that leaves GEN running, or ends it, is on the list. -/
theorem genTurn_of_engineStep {s t : State} (hinv : StateInv s) (hgen : inGen s) (h : engineStep s = .next t) :
    GenTurn s t := by
  have hactive : s.fsm ≠ .idle ∧ s.fsm ≠ .rastRun := by rcases hgen with hf | hf <;> simp [hf]
  rcases engineStep_cases h with ⟨hidle, -⟩ | ⟨-, hf, -⟩ | ⟨-, hscan, rfl⟩ | ⟨-, hwalk, -, rfl⟩ | ⟨-, hf, -⟩ | ⟨-, hf, -⟩
  · exact absurd (hinv.isBusy_false_iff.mp hidle) hactive.1
  · exact absurd hf hactive.1
  · exact genTurn_scanStep hinv hscan
  · exact genTurn_walkPass hinv hwalk
  · exact absurd hf hactive.2
  · exact absurd hf hactive.2

/-- A running GEN takes a turn whenever it is given one. -/
theorem exists_genTurn {s : State} (hinv : StateInv s) (hgen : inGen s) : ∃ t, engineStep s = .next t ∧ GenTurn s t := by
  have hbusy := hinv.isBusy_of_inGen hgen
  rcases hgen with hscan | hwalk
  · exact ⟨scanStep s, by simp [engineStep, hbusy, hscan], genTurn_scanStep hinv hscan⟩
  · refine ⟨walkPass s, ?_, genTurn_walkPass hinv hwalk⟩
    simp [engineStep, hbusy, hwalk, walkStep, inGrid_of_inRegion (hinv.walking hwalk).1]

namespace GenTurn

variable {s t : State}

theorem inGen_before (h : GenTurn s t) : inGen s := by
  cases h with
  | finished hscan | skipped hscan | started hscan => exact .inl hscan
  | aborted hwalk | retried hwalk | ended hwalk | moved hwalk => exact .inr hwalk

/-- The arrays after a turn: as before it, after the mark alone, or after the mark and the carve. -/
theorem arrays (h : GenTurn s t) :
    sameArrays s t ∨ (∃ x y, CursorAt s x y ∧ sameArrays (drawn s) t) ∨
      (∃ x y, CursorAt s x y ∧ sameArrays (afterCarve s) t) := by
  cases h with
  | finished => exact .inl (sameArrays_finishGen s)
  | skipped => exact .inl (sameArrays_advanceScan s)
  | started => exact .inl ⟨rfl, rfl⟩
  | aborted _ hcur | retried _ hcur => exact .inr (.inl ⟨_, _, hcur, rfl, rfl⟩)
  | ended _ hcur => exact .inr (.inr ⟨_, _, hcur, sameArrays_advanceScan (afterCarve s)⟩)
  | moved _ hcur => exact .inr (.inr ⟨_, _, hcur, rfl, rfl⟩)

/-- A visited cell stays visited. -/
theorem visited_mono (h : GenTurn s t) {x' y' : Nat} (hx' : x' ≤ 17) (hv : visited s x' y' = true) :
    visited t x' y' = true := by
  rcases h.arrays with ha | ⟨x, y, hcur, ha⟩ | ⟨x, y, hcur, ha⟩
  · rw [ha.visited, hv]
  · rw [ha.visited, visited_drawn hcur hx', hv, Bool.true_or]
  · rw [ha.visited, visited_afterCarve hcur hx', hv, Bool.true_or]

/-- A bit that no draw from the region carves stays clear. -/
theorem getLsbD_wallRead_of_not_owned (h : GenTurn s t) {x' y' k : Nat} (hx' : x' ≤ 17) (hk : k ≠ 0)
    (hother : ∀ x y d, x ≤ 16 → y ≤ 7 → (x', y') = edgeOwner x y d → k ≠ edgeBit d)
    (hclear : (wallRead s x' y').getLsbD k = false) : (wallRead t x' y').getLsbD k = false := by
  rcases h.arrays with ha | ⟨x, y, hcur, ha⟩ | ⟨x, y, hcur, ha⟩ <;> rw [ha.wallRead]
  · exact hclear
  · rw [getLsbD_wallRead_drawn hcur hx' hk, hclear]
  · rw [← Bool.not_eq_true, getLsbD_wallRead_afterCarve hcur hx', hclear]
    rintro (h | ⟨-, -, h⟩ | ⟨howner, h⟩)
    · cases h
    · exact hk h
    · exact hother x y _ hcur.x_le hcur.y_le howner h

end GenTurn

/-! The issue. -/

theorem sameArrays_startGen (s : State) : sameArrays (initWall (loadGenerator s.seed (setBusy s))) (startGen s) :=
  ⟨startGen_mem s, by rw [startGen_frame, initWall_frame]; rfl⟩

/-- GEN starts from the initial grid (R74). -/
theorem wallRead_startGen (s : State) {x y : Nat} (hx : x ≤ 17) (hy : y ≤ 8) :
    wallRead (startGen s) x y = initCell x y := by
  rw [(sameArrays_startGen s).wallRead, wallRead_initWall _ hx hy]

theorem readByte_startGen_other (s : State) {a : Nat} (h : a < 0x100 ∨ 0x1A1 < a) :
    readByte (startGen s) a = readByte s a := by
  rw [(sameArrays_startGen s).readByte, readByte_initWall_other _ h]
  rfl

theorem startGen_fsm (s : State) : (startGen s).fsm = .genScan := by rw [startGen_frame]

theorem getLsbD_initCell (x y : Nat) {k : Nat} (hk : k ≠ 0) : (initCell x y).getLsbD k = false := by
  unfold initCell
  split_ifs
  · rw [getLsbD_visitedMask, decide_eq_false hk]
  · simp

theorem visited_startGen_border (s : State) {x y : Nat} (hx : x ≤ 17) (hy : y ≤ 8) (h : y = 8 ∨ x = 17) :
    visited (startGen s) x y = true := by
  rw [visited, wallRead_startGen s hx hy, initCell, if_pos h]
  rfl

/-! The induction. -/

theorem not_inGen_iff {s : State} : ¬ inGen s ↔ s.fsm = .idle ∨ s.fsm = .rastRun := by
  unfold inGen
  cases s.fsm <;> simp

/-- A predicate on running GENs holds after every step if it holds after the issue and every turn of GEN keeps it: any other
step of a running GEN moves the error bits and the record of events and reads alone (R46, spec/60_exceptions.md R101). -/
theorem step_keeps_of_genTurn {P : State → Prop} (houtside : ∀ t, ¬ inGen t → P t)
    (hrecord : ∀ s v n es as, P s → P { s with status := v, freeReads := n, events := es, answers := as })
    (hstart : ∀ s, P (startGen s)) (hturn : ∀ s t, StateInv s → P s → GenTurn s t → P t)
    {s t : State} (hinv : StateInv s) (hP : P s) (hstep : step s = .next t) : P t := by
  have pending (rest : List Event) : StateInv (setEvents rest s) ∧ P (setEvents rest s) :=
    ⟨hinv.record s.seed s.epoch s.freeReads rest s.answers, hrecord s s.status s.freeReads rest s.answers hP⟩
  have idle (rest : List Event) (h : isBusy (setEvents rest s) = false) : ¬ inGen (setEvents rest s) :=
    not_inGen_of_idle ((pending rest).1.isBusy_false_iff.mp h)
  cases stepEffect_of_step hstep with
  | turn rest _ hengine =>
    obtain ⟨hinv', hP'⟩ := pending rest
    by_cases hgen : inGen (setEvents rest s)
    · exact hturn _ _ hinv' hP' (genTurn_of_engineStep hinv' hgen hengine)
    · rcases engineStep_cases hengine with ⟨-, rfl⟩ | ⟨-, -, rfl⟩ | ⟨-, hf, -⟩ | ⟨-, hf, -⟩ |
        ⟨-, hf, -, -, rfl⟩ | ⟨-, -, -, rfl⟩
      · exact hP'
      · exact hP'
      · exact absurd (.inl hf) hgen
      · exact absurd (.inr hf) hgen
      · exact houtside _ (not_inGen_iff.mpr (.inr hf))
      · exact houtside _ (not_inGen_iff.mpr (.inl rfl))
  | record es n as => exact hrecord s s.status n es as hP
  | write a d rest _ heff =>
    cases heff with
    | errorBits v => exact hrecord s v s.freeReads rest s.answers hP
    | gen c => exact hstart _
    | rast => exact houtside _ (not_inGen_iff.mpr (.inr rfl))
    | seed _ hidle | cell _ _ _ _ hidle | load _ _ hidle | draw _ _ hidle => exact houtside _ (idle rest hidle)
  | reset => exact houtside _ (not_inGen_iff.mpr (.inl rfl))

end Sys2Proof.Machine

/-! # The three invariants of a running GEN

Each says nothing of an idle block or of RAST, holds after the issue, and is kept by each of the turns. -/

namespace Sys2Proof.Machine

theorem not_inGen_finishGen (s : State) : ¬ inGen (finishGen s) := by
  rcases finishGen_cases s with ⟨-, h⟩ | ⟨-, h⟩ <;> rw [h] <;> simp [inGen]

theorem not_genWalk_of_not_inGen {s : State} (h : ¬ inGen s) : s.fsm ≠ .genWalk := fun hw => h (.inr hw)

theorem not_genWalk_of_genScan {s : State} (h : s.fsm = .genScan) : s.fsm ≠ .genWalk := by simp [h]

/-! Coverage (spec/41_maze_carver.md R74, R76, R77). -/

theorem coverInv_of_not_inGen {s : State} (h : ¬ inGen s) : CoverInv s where
  border := fun hg => absurd hg h
  scanned := fun hg => absurd hg h
  current := fun hw => absurd hw (not_genWalk_of_not_inGen h)
  bottom_row := fun hg => absurd hg h
  right_column := fun hg => absurd hg h

theorem coverInv_startGen (s : State) : CoverInv (startGen s) where
  border := fun _ _ _ hx hy h => visited_startGen_border s hx hy h
  scanned := fun _ x y hx _ h => by
    rw [scannedBefore, startGen_frame] at h
    rcases h with h | h | ⟨-, h⟩
    · cases h
    · exact absurd hx (Nat.not_le_of_lt h)
    · exact absurd h (Nat.not_lt_zero y)
  current := fun h => absurd h (not_genWalk_of_genScan (startGen_fsm s))
  bottom_row := fun _ x hx => by rw [wallRead_startGen s hx (Nat.le_refl 8), getLsbD_initCell _ _ (by decide)]
  right_column := fun _ y hy => by rw [wallRead_startGen s (Nat.le_refl 17) hy, getLsbD_initCell _ _ (by decide)]

/-- Advancing the scan adds the candidate left behind to those scanned (R76). -/
theorem scannedBefore_advanceScan {s : State} (hcy : s.cy ≤ 7) {x y : Nat} (hy : y ≤ 7)
    (h : scannedBefore (advanceScan s) x y) : scannedBefore s x y ∨ (x = s.cx ∧ y = s.cy) := by
  unfold scannedBefore at h ⊢
  rw [or_assoc]
  rcases advanceScan_cases s with ⟨hlt, e⟩ | ⟨hge, hpos, e⟩ | ⟨hge, hzero, e⟩
  · rw [e] at h
    exact h.imp_right fun h => by simp only at h; omega
  · rw [e] at h
    exact h.imp_right fun h => by simp only at h; omega
  · exact .inr (by omega)

namespace CoverInv

variable {s t : State}

/-- A candidate left behind is a pole, or the walk that started there has marked it. -/
theorem scanned_genTurn (hinv : StateInv s) (h : CoverInv s) (turn : GenTurn s t) (hgen : inGen t) {x y : Nat}
    (hx : x ≤ 16) (hy : y ≤ 7) (hs : scannedBefore t x y) : visited t x y = true := by
  have hx' : x ≤ 17 := Nat.le_succ_of_le hx
  have kept (hs : scannedBefore s x y) : visited t x y = true :=
    turn.visited_mono hx' (h.scanned turn.inGen_before x y hx hy hs)
  cases turn with
  | finished => exact absurd hgen (not_inGen_finishGen s)
  | aborted => exact absurd hgen (not_inGen_of_idle rfl)
  | started | retried => exact kept hs
  | moved =>
    refine kept ?_
    rwa [scannedBefore, afterCarve_scanDone, afterCarve_cx, afterCarve_cy] at hs
  | skipped _ _ hpole =>
    rcases scannedBefore_advanceScan hinv.candidate.2 hy hs with hs | ⟨rfl, rfl⟩
    · exact kept hs
    · rw [(sameArrays_advanceScan s).visited, hpole]
  | ended hwalk hcur =>
    have hs' := scannedBefore_advanceScan (s := afterCarve s) (by rw [afterCarve_cy]; exact hinv.candidate.2) hy hs
    rw [scannedBefore, afterCarve_scanDone, afterCarve_cx, afterCarve_cy] at hs'
    rcases hs' with hs' | ⟨rfl, rfl⟩
    · exact kept hs'
    · rw [(sameArrays_advanceScan _).visited, visited_afterCarve hcur hx', Bool.or_eq_true, decide_eq_true_eq]
      refine (h.current hwalk).imp_right fun hstart => ?_
      rw [hcur.x_eq, hcur.y_eq] at hstart
      omega

/-- The walk stands where it started until it has marked that cell. -/
theorem current_genTurn (hinv : StateInv s) (h : CoverInv s) (turn : GenTurn s t) (hwalk' : t.fsm = .genWalk) :
    visited t t.cx t.cy = true ∨ (t.x = t.cx ∧ t.y = t.cy) := by
  have hcx : s.cx ≤ 17 := Nat.le_succ_of_le hinv.candidate.1
  cases turn with
  | finished => exact absurd (.inr hwalk') (not_inGen_finishGen s)
  | aborted => cases hwalk'
  | skipped | ended => exact absurd hwalk' (not_genWalk_of_genScan (advanceScan_fsm _))
  | started => exact .inr ⟨rfl, rfl⟩
  | retried hwalk hcur hblocked hcap =>
    exact (h.current hwalk).imp_left fun hv => (GenTurn.retried hwalk hcur hblocked hcap).visited_mono hcx hv
  | moved hwalk hcur =>
    left
    rw [afterCarve_cx, afterCarve_cy, visited_afterCarve hcur hcx, Bool.or_eq_true, decide_eq_true_eq]
    refine (h.current hwalk).imp_right fun hstart => ?_
    rw [hcur.x_eq, hcur.y_eq] at hstart
    omega

theorem genTurn (hinv : StateInv s) (h : CoverInv s) (turn : GenTurn s t) : CoverInv t where
  border := fun _ x y hx hy hb => turn.visited_mono hx (h.border turn.inGen_before x y hx hy hb)
  scanned := fun hgen _ _ hx hy hs => h.scanned_genTurn hinv turn hgen hx hy hs
  current := h.current_genTurn hinv turn
  bottom_row := fun _ x hx => turn.getLsbD_wallRead_of_not_owned hx (by decide)
    (fun _ _ d _ hy ho => by cases d <;> simp only [edgeOwner, edgeBit, Prod.mk.injEq] at ho ⊢ <;> omega)
    (h.bottom_row turn.inGen_before x hx)
  right_column := fun _ y hy => turn.getLsbD_wallRead_of_not_owned (Nat.le_refl 17) (by decide)
    (fun _ _ d hx _ ho => by cases d <;> simp only [edgeOwner, edgeBit, Prod.mk.injEq] at ho ⊢ <;> omega)
    (h.right_column turn.inGen_before y hy)

theorem step (hinv : StateInv s) (h : CoverInv s) (hstep : Machine.step s = .next t) : CoverInv t :=
  step_keeps_of_genTurn (P := CoverInv) (fun _ => coverInv_of_not_inGen)
    (fun _ _ _ _ _ h => ⟨h.border, h.scanned, h.current, h.bottom_row, h.right_column⟩) coverInv_startGen
    (fun _ _ hinv h turn => h.genTurn hinv turn) hinv h hstep

end CoverInv

/-- Settles O47: the issue gives the coverage, and each turn of GEN keeps it. -/
theorem everyStepKeepsTheCoverage : Obligations.EveryStepKeepsTheCoverage :=
  fun _ _ hinv h hstep => h.step hinv hstep

/-! Edges (R83). -/

theorem edgeInv_of_not_inGen {s : State} (h : ¬ inGen s) : EdgeInv s where
  unvisited := fun hg => absurd hg h
  one_blocked := fun hw => absurd hw (not_genWalk_of_not_inGen h)

/-- The initial grid has no edge. -/
theorem noEdge_startGen (s : State) {x y : Nat} (hx : x ≤ 16) (hy : y ≤ 7) : noEdge (startGen s) x y := fun d => by
  obtain ⟨hox, hoy⟩ := edgeOwner_inGrid d hx hy
  rw [isBlocked_eq _ d hx hy, wallRead_startGen s hox hoy, getLsbD_initCell _ _ (edgeBit_ne_zero d)]

theorem edgeInv_startGen (s : State) : EdgeInv (startGen s) where
  unvisited := fun _ _ _ hx hy _ _ => noEdge_startGen s hx hy
  one_blocked := fun h => absurd h (not_genWalk_of_genScan (startGen_fsm s))

theorem sameArrays.noEdge {s t : State} (h : sameArrays s t) {x y : Nat} (hn : noEdge s x y) : noEdge t x y :=
  fun d => (h.isBlocked x y d).trans (hn d)

namespace EdgeInv

variable {s t : State} {x y x' y' : Nat}

/-- During a walk an unvisited cell has no edge, unless the walk stands on it. -/
theorem noEdge_of_unvisited (h : EdgeInv s) (hwalk : s.fsm = .genWalk) (hcur : CursorAt s x y) (hx' : x' ≤ 16)
    (hy' : y' ≤ 7) (hv : visited s x' y' = false) (hne : ¬ (x' = x ∧ y' = y)) : noEdge s x' y' :=
  h.unvisited (.inr hwalk) x' y' hx' hy' hv fun ⟨_, hx, hy⟩ => hne ⟨by have := hcur.x_eq; omega, by have := hcur.y_eq; omega⟩

/-- The mark leaves the edges, so a cell that is still unvisited has none. -/
theorem noEdge_drawn (h : EdgeInv s) (hwalk : s.fsm = .genWalk) (hcur : CursorAt s x y) (hx' : x' ≤ 16) (hy' : y' ≤ 7)
    (hv : visited (drawn s) x' y' = false) : noEdge (drawn s) x' y' := by
  rw [visited_drawn hcur (Nat.le_succ_of_le hx'), Bool.or_eq_false_iff, decide_eq_false_iff_not] at hv
  exact fun d => (isBlocked_drawn hcur hx' hy' d).trans (h.noEdge_of_unvisited hwalk hcur hx' hy' hv.1 hv.2 d)

/-- The edge carved has the marked cell on one side and the new cursor on the other. -/
theorem noEdge_afterCarve (h : EdgeInv s) (hwalk : s.fsm = .genWalk) (hcur : CursorAt s x y) (hx' : x' ≤ 16) (hy' : y' ≤ 7)
    (hv : visited (afterCarve s) x' y' = false) (hne : ¬ CursorAt (afterCarve s) x' y') : noEdge (afterCarve s) x' y' := by
  rw [visited_afterCarve hcur (Nat.le_succ_of_le hx'), Bool.or_eq_false_iff, decide_eq_false_iff_not] at hv
  have hnone := h.noEdge_of_unvisited hwalk hcur hx' hy' hv.1 hv.2
  intro d
  rw [← Bool.not_eq_true, isBlocked_afterCarve hcur hx' hy', hnone d, sameEdge_iff]
  rintro (hb | ⟨hx, hy, -⟩ | ⟨hx, hy, -⟩)
  · cases hb
  · exact hv.2 ⟨hx, hy⟩
  · exact hne ⟨by rw [afterCarve_x, hx, hcur.x_eq], by rw [afterCarve_y, hy, hcur.y_eq], hx', hy'⟩

/-- Of the cell a walk has moved to only the way back is blocked. -/
theorem eq_opposite_of_isBlocked (h : EdgeInv s) (hwalk : s.fsm = .genWalk) (hcur : CursorAt s x y)
    (hcur' : CursorAt (afterCarve s) x' y') (hnew : visited s x' y' = false) {d : Direction}
    (hb : isBlocked (afterCarve s) x' y' d = true) : d = opposite (drawnDirection s) := by
  have hne := (afterCarve_neighbour hcur hcur').2.2
  rw [isBlocked_afterCarve hcur hcur'.x_le hcur'.y_le,
    h.noEdge_of_unvisited hwalk hcur hcur'.x_le hcur'.y_le hnew hne d, sameEdge_iff] at hb
  rcases hb with hb | ⟨hx, hy, -⟩ | ⟨-, -, hd⟩
  · cases hb
  · exact absurd ⟨hx, hy⟩ hne
  · exact hd

/-- A walk starts at an unvisited cell, which has no edge. -/
theorem noEdge_candidate (hinv : StateInv s) (h : EdgeInv s) (hscan : s.fsm = .genScan)
    (hnew : visited s s.cx s.cy = false) : noEdge s s.cx s.cy :=
  h.unvisited (.inl hscan) s.cx s.cy hinv.candidate.1 hinv.candidate.2 hnew
    fun hw => not_genWalk_of_genScan hscan hw.1

theorem genTurn (hinv : StateInv s) (h : EdgeInv s) (turn : GenTurn s t) : EdgeInv t := by
  cases turn with
  | finished => exact edgeInv_of_not_inGen (not_inGen_finishGen s)
  | aborted => exact edgeInv_of_idle rfl
  | skipped hscan =>
    have harrays := sameArrays_advanceScan s
    refine ⟨fun _ x y hx hy hv _ => ?_, fun hw => absurd hw (not_genWalk_of_genScan (advanceScan_fsm s))⟩
    rw [harrays.visited] at hv
    exact harrays.noEdge (h.unvisited (.inl hscan) x y hx hy hv fun hw => not_genWalk_of_genScan hscan hw.1)
  | started hscan _ hnew =>
    refine ⟨fun _ x y hx hy hv _ => ?_, fun _ d _ hb => ?_⟩
    · exact h.unvisited (.inl hscan) x y hx hy hv fun hw => not_genWalk_of_genScan hscan hw.1
    · have hopen : isBlocked s s.cx s.cy d = false := h.noEdge_candidate hinv hscan hnew d
      exact absurd (hopen.symm.trans hb) Bool.false_ne_true
  | retried hwalk hcur =>
    refine ⟨fun _ _ _ hx hy hv _ => h.noEdge_drawn hwalk hcur hx hy hv, fun _ d d' hb hb' => ?_⟩
    refine h.one_blocked hwalk d d' ?_ ?_ <;> rw [hcur.x_toNat, hcur.y_toNat, ← isBlocked_drawn hcur hcur.x_le hcur.y_le,
      ← hcur.x_toNat, ← hcur.y_toNat]
    · exact hb
    · exact hb'
  | ended hwalk hcur _ hpole =>
    have harrays := sameArrays_advanceScan (afterCarve s)
    refine ⟨fun _ x' y' hx hy hv _ => ?_, fun hw => absurd hw (not_genWalk_of_genScan (advanceScan_fsm _))⟩
    rw [harrays.visited] at hv
    refine harrays.noEdge (h.noEdge_afterCarve hwalk hcur hx hy hv fun hcur' => ?_)
    rw [visited_afterCarve_neighbour hcur hcur', hpole x' y' hcur'] at hv
    cases hv
  | moved hwalk hcur _ hcur' hnew =>
    refine ⟨fun _ _ _ hx hy hv hne => ?_, fun _ d d' hb hb' => ?_⟩
    · refine h.noEdge_afterCarve hwalk hcur hx hy hv fun hc => hne ⟨by rw [afterCarve_fsm, hwalk], hc.x_eq, hc.y_eq⟩
    · rw [hcur'.x_toNat, hcur'.y_toNat] at hb hb'
      rw [h.eq_opposite_of_isBlocked hwalk hcur hcur' hnew hb, h.eq_opposite_of_isBlocked hwalk hcur hcur' hnew hb']

theorem step (hinv : StateInv s) (h : EdgeInv s) (hstep : Machine.step s = .next t) : EdgeInv t :=
  step_keeps_of_genTurn (P := EdgeInv) (fun _ => edgeInv_of_not_inGen)
    (fun _ _ _ _ _ h => ⟨h.unvisited, h.one_blocked⟩) edgeInv_startGen
    (fun _ _ hinv h turn => h.genTurn hinv turn) hinv h hstep

end EdgeInv

/-- Settles O48: a walk carves from a cell it has marked, so the one edge of the cell it moves to is the way back. -/
theorem atMostOneDirectionIsBlocked : Obligations.AtMostOneDirectionIsBlocked :=
  fun _ _ hinv h hstep => h.step hinv hstep

/-! RETRY (R85). -/

theorem retryInv_of_not_genWalk {s : State} (h : s.fsm ≠ .genWalk) : RetryInv s where
  blocked_run := fun hw => absurd hw h
  left_open := fun hw => absurd hw h

theorem directionOf_injective : Function.Injective directionOf := Function.LeftInverse.injective codeOf_directionOf

/-- Seven codes in a row that are the same fill SR with one bit (spec/40_direction_generator.md R71). -/
theorem sr_of_run {v : Byte} {c : BitVec 2} (h : ∀ j, j < 7 → v.extractLsb' j 2 = c) :
    (v = 0x00 ∧ c = 0) ∨ (v = 0xFF ∧ c = 3) := by
  have table : ∀ v : Byte, (∀ j, j < 7 → v.extractLsb' j 2 = v.extractLsb' 0 2) → v = 0x00 ∨ v = 0xFF := by decide
  have hc := h 0 (by decide)
  subst hc
  rcases table v h with rfl | rfl
  · exact .inl ⟨rfl, rfl⟩
  · exact .inr ⟨rfl, rfl⟩

/-- At the generator's fixed point every draw is Left (R86). -/
theorem drawn_dir_of_fixed {s : State} (hsr : s.sr = 0xFF) (hpb : s.pb = 1) : (drawn s).dir = 3 := by
  have hdir : (drawn s).dir = s.pb ++ insertedBit s.sr := nextDirection_dir_append s
  rw [hdir, hsr, hpb]
  rfl

theorem drawnDirection_of_fixed {s : State} (hsr : s.sr = 0xFF) (hpb : s.pb = 1) : drawnDirection s = .left := by
  rw [drawnDirection, drawn_dir_of_fixed hsr hpb]
  rfl

namespace RetryInv

variable {s t : State} {x y : Nat}

/-- The draws a walk repeats at a cell have one code, that of the one blocked direction (R83). -/
theorem dir_eq_of_blocked (h : RetryInv s) (hedge : EdgeInv s) (hwalk : s.fsm = .genWalk) (hcur : CursorAt s x y)
    (hblocked : isBlocked s x y (drawnDirection s) = true) (hpos : 0 < s.retry) : (drawn s).dir = s.dir := by
  rw [← hcur.x_toNat, ← hcur.y_toNat] at hblocked
  exact directionOf_injective (hedge.one_blocked hwalk _ _ hblocked (h.blocked_run hwalk hpos).2.1)

/-- An eighth blocked draw cannot come: seven codes 0 are followed by a 1, and seven codes 3 mean SR = 0xFF, where Left is
not blocked (R71, R86). -/
theorem retry_lt_of_blocked (h : RetryInv s) (hedge : EdgeInv s) (hwalk : s.fsm = .genWalk) (hcur : CursorAt s x y)
    (hblocked : isBlocked s x y (drawnDirection s) = true) : s.retry < 7 := by
  by_contra hge
  have hpos : 0 < s.retry := by omega
  obtain ⟨hle, hrunBlocked, hrun⟩ := h.blocked_run hwalk hpos
  have hdir := h.dir_eq_of_blocked hedge hwalk hcur hblocked hpos
  rcases sr_of_run fun j hj => hrun j (by omega) with ⟨hsr, hcode⟩ | ⟨hsr, hcode⟩
  · have hlow : (drawn s).dir.extractLsb' 0 1 = insertedBit s.sr := nextDirection_dir_low s
    rw [hdir, hcode, hsr] at hlow
    exact absurd hlow (by decide)
  · rw [hcode] at hrunBlocked
    exact absurd ((h.left_open hwalk hsr).symm.trans hrunBlocked) Bool.false_ne_true

/-- A blocked draw lengthens the run of one code by one. -/
theorem run_drawn (hinv : StateInv s) (h : RetryInv s) (hedge : EdgeInv s) (hwalk : s.fsm = .genWalk)
    (hcur : CursorAt s x y) (hblocked : isBlocked s x y (drawnDirection s) = true) {j : Nat} (hj : j < s.retry + 1) :
    (drawn s).sr.extractLsb' j 2 = (drawn s).dir := by
  have hlt := h.retry_lt_of_blocked hedge hwalk hcur hblocked
  cases j with
  | zero => exact (nextDirection_dir_eq_low_bits hinv.pb_eq).symm
  | succ j =>
    have hpos : 0 < s.retry := by omega
    have hshift : (drawn s).sr.extractLsb' (j + 1) 2 = s.sr.extractLsb' j 2 := extractLsb'_shiftedSr s.sr (by omega)
    rw [hshift, (h.blocked_run hwalk hpos).2.2 j (by omega), h.dir_eq_of_blocked hedge hwalk hcur hblocked hpos]

theorem genTurn (hinv : StateInv s) (hedge : EdgeInv s) (h : RetryInv s) (turn : GenTurn s t) : RetryInv t := by
  cases turn with
  | finished => exact retryInv_of_not_genWalk (not_genWalk_of_not_inGen (not_inGen_finishGen s))
  | aborted => exact retryInv_of_idle rfl
  | skipped | ended => exact retryInv_of_not_genWalk (not_genWalk_of_genScan (advanceScan_fsm _))
  | started hscan _ hnew =>
    exact ⟨fun _ hpos => absurd hpos (Nat.lt_irrefl 0), fun _ _ => hedge.noEdge_candidate hinv hscan hnew .left⟩
  | retried hwalk hcur hblocked =>
    have hkept (d : Direction) : isBlocked (drawn s) s.x.toNat s.y.toNat d = isBlocked s s.x.toNat s.y.toNat d := by
      rw [hcur.x_toNat, hcur.y_toNat, isBlocked_drawn hcur hcur.x_le hcur.y_le]
    refine ⟨fun _ _ => ⟨h.retry_lt_of_blocked hedge hwalk hcur hblocked, (hkept (drawnDirection s)).trans ?_, fun j hj =>
      h.run_drawn hinv hedge hwalk hcur hblocked hj⟩, fun _ hsr => (hkept .left).trans ?_⟩
    · rwa [hcur.x_toNat, hcur.y_toNat]
    · exact h.left_open hwalk (shiftedSr_eq_FF_iff.mp hsr)
  | moved hwalk hcur _ hcur' hnew =>
    refine ⟨fun _ hpos => absurd hpos (by rw [afterCarve_retry]; exact Nat.lt_irrefl 0), fun _ hsr => ?_⟩
    rw [afterCarve_sr, shiftedSr_eq_FF_iff] at hsr
    rw [hcur'.x_toNat, hcur'.y_toNat, ← Bool.not_eq_true]
    intro hb
    have hback := hedge.eq_opposite_of_isBlocked hwalk hcur hcur' hnew hb
    rw [drawnDirection_of_fixed hsr (by rw [hinv.pb_eq, hsr]; rfl)] at hback
    cases hback

theorem step (hinv : StateInv s) (hedge : EdgeInv s) (h : RetryInv s) (hstep : Machine.step s = .next t) : RetryInv t :=
  (step_keeps_of_genTurn (P := fun u => EdgeInv u ∧ RetryInv u)
    (fun _ hg => ⟨edgeInv_of_not_inGen hg, retryInv_of_not_genWalk (not_genWalk_of_not_inGen hg)⟩)
    (fun _ _ _ _ _ h => ⟨⟨h.1.unvisited, h.1.one_blocked⟩, ⟨h.2.blocked_run, h.2.left_open⟩⟩)
    (fun s => ⟨edgeInv_startGen s, retryInv_of_not_genWalk (not_genWalk_of_genScan (startGen_fsm s))⟩)
    (fun _ _ hinv h turn => ⟨h.1.genTurn hinv turn, h.2.genTurn hinv h.1 turn⟩) hinv ⟨hedge, h⟩ hstep).2

/-- With the invariants a blocked draw never reaches the cap (R85). -/
theorem retry_ne_cap (h : RetryInv s) (hedge : EdgeInv s) (hwalk : s.fsm = .genWalk) (hcur : CursorAt s x y)
    (hblocked : isBlocked s x y (drawnDirection s) = true) : s.retry + 1 ≠ Config.retryCap := by
  have hlt := h.retry_lt_of_blocked hedge hwalk hcur hblocked
  have hcap := retryCap_ge
  omega

end RetryInv

/-! ERR_CAP (spec/60_exceptions.md R105). -/

theorem hasError_finishGen (e : ErrorFlag) (s : State) : hasError e (finishGen s) = hasError e s := by
  rcases finishGen_cases s with ⟨-, h⟩ | ⟨-, h⟩ <;> rw [h]
  · exact hasError_congr e rfl
  · rw [hasError_clearBusy]
    exact hasError_congr e rfl

/-- A turn of GEN that is no abort moves no error bit. -/
theorem GenTurn.hasError_of_invariants {s t : State} (turn : GenTurn s t) (hedge : EdgeInv s) (hretry : RetryInv s)
    (e : ErrorFlag) : hasError e t = hasError e s := by
  cases turn with
  | finished => exact hasError_finishGen e s
  | aborted hwalk hcur hblocked hcap => exact absurd hcap (hretry.retry_ne_cap hedge hwalk hcur hblocked)
  | skipped => exact hasError_congr e (advanceScan_status s)
  | started | retried => exact hasError_congr e rfl
  | ended => exact hasError_congr e (by rw [advanceScan_status, afterCarve_frame])
  | moved => exact hasError_congr e (by rw [afterCarve_frame])

/-- A command is issued or rejected; neither raises ERR_CAP. -/
theorem hasError_cap_exec {i : Instr} {s t : State} (h : exec i s = .next t) : hasError .cap t = hasError .cap s := by
  have issued (u : State) : hasError .cap (startGen u) = hasError .cap u :=
    (hasError_congr (s := setBusy u) .cap (by rw [startGen_frame]; rfl)).trans (hasError_setBusy .cap u)
  rcases exec_cases h with ⟨-, rfl⟩ | ⟨-, -, rfl⟩ | ⟨-, -, rfl⟩ | ⟨-, -, rfl⟩ | ⟨-, -, rfl⟩ | ⟨-, -, rfl⟩ | ⟨-, -, rfl⟩
  · exact hasError_raise_other s (by decide)
  · rfl
  · exact issued s
  · exact (hasError_congr (s := setBusy s) .cap rfl).trans (hasError_setBusy .cap s)
  · exact issued { s with chain := true }
  · exact hasError_congr .cap rfl
  · exact hasError_congr .cap rfl

/-- No host write raises ERR_CAP. -/
theorem hasError_cap_hostWrite {a : Address} {d : Byte} {s t : State} (h : hostWrite a d s = .next t)
    (hs : hasError .cap s = false) : hasError .cap t = false := by
  have hreject : hasError .cap (raise .busy s) = false := by rw [hasError_raise_other s (by decide), hs]
  rcases hostWrite_cases h with ⟨-, h⟩ | ⟨-, rfl⟩ | ⟨-, ⟨-, rfl⟩ | ⟨-, rfl⟩⟩ | ⟨_, _, -, -, -, ⟨-, rfl⟩ | ⟨-, rfl⟩⟩ |
    ⟨-, -, -, -, rfl⟩
  · rcases writeCommand_cases h with ⟨-, rfl⟩ | ⟨-, _, -, h⟩ | ⟨-, -, rfl⟩
    · exact hreject
    · rw [hasError_cap_exec h, hs]
    · rw [hasError_raise_other s (by decide), hs]
  · rw [hasError_clearErrors, hs, Bool.false_and]
  · exact hreject
  · exact hs
  · exact hreject
  · exact hs
  · exact hs

theorem hasError_cap_engineStep {s t : State} (hinv : StateInv s) (hedge : EdgeInv s) (hretry : RetryInv s)
    (h : engineStep s = .next t) : hasError .cap t = hasError .cap s := by
  by_cases hgen : inGen s
  · exact (genTurn_of_engineStep hinv hgen h).hasError_of_invariants hedge hretry .cap
  · rcases engineStep_cases h with ⟨-, rfl⟩ | ⟨-, -, rfl⟩ | ⟨-, hf, -⟩ | ⟨-, hf, -⟩ | ⟨-, -, -, -, rfl⟩ | ⟨-, -, -, rfl⟩
    · rfl
    · rfl
    · exact absurd (.inl hf) hgen
    · exact absurd (.inr hf) hgen
    · exact hasError_congr .cap rfl
    · exact (hasError_clearBusy .cap _).trans (hasError_congr .cap rfl)

theorem hasError_cap_step {s t : State} (hinv : StateInv s) (hedge : EdgeInv s) (hretry : RetryInv s)
    (h : step s = .next t) (hs : hasError .cap s = false) : hasError .cap t = false := by
  have turn (rest : List Event) (ht : engineStep (setEvents rest s) = .next t) : hasError .cap t = false :=
    (hasError_cap_engineStep (hinv.record s.seed s.epoch s.freeReads rest s.answers)
      ⟨hedge.unvisited, hedge.one_blocked⟩ ⟨hretry.blocked_run, hretry.left_open⟩ ht).trans hs
  rcases step_cases h with ⟨hev, ht⟩ | ⟨rest, -, ht⟩ | ⟨a, rest, -, rfl⟩ | ⟨a, d, rest, -, hw⟩ | ⟨rest, -, rfl⟩ |
    ⟨rest, -, rfl⟩
  · exact turn [] (by rwa [← hev])
  · exact turn rest ht
  · rw [hostRead_frame]
    exact hs
  · exact hasError_cap_hostWrite hw hs
  · exact hs
  · simp [hasError]

/-- Settles O49: the blocked draws of a walk at a cell all have the code of its one blocked direction. -/
theorem everyStepKeepsTheRetryBound : Obligations.EveryStepKeepsTheRetryBound :=
  fun _ _ hinv hedge hretry hstep =>
    ⟨hinv.step hstep, hedge.step hinv hstep, hretry.step hinv hedge hstep, hasError_cap_step hinv hedge hretry hstep⟩

end Sys2Proof.Machine

/-! # The statements on one turn of the carver

The issue (R73, R74), the pole test (R75), the scan (R76, R81 item 2) and one draw of a walk (R77 to R80). -/

namespace Sys2Proof.Machine

/-! The issue. -/

/-- What the issue leaves, but for the bytes of WALL, said of both commands: GENRAST has set CHAIN first. -/
theorem startGen_issue (s : State) (c : Bool) : let t := startGen { s with chain := c }
    t = { s with
      sr := s.seed, pb := s.seed.extractLsb' 0 1, status := s.status ||| 0x01, mem := t.mem,
      fsm := .genScan, chain := c, cx := 16, cy := 0, scanDone := false } ∧
    (∀ x y, x ≤ 17 → y ≤ 8 → wallRead t x y = if y = 8 ∨ x = 17 then 1 else 0) ∧
    (∀ a, a < 0x100 ∨ 0x1A1 < a → readByte t a = readByte s a) :=
  ⟨startGen_frame { s with chain := c }, fun _ _ hx hy => wallRead_startGen { s with chain := c } hx hy,
    fun _ ha => readByte_startGen_other { s with chain := c } ha⟩

/-- Settles O7: GENRAST is GEN with CHAIN set first. -/
theorem genAndGenrastIssue : Obligations.GenAndGenrastIssue := by
  rintro s i c hi hidle
  have hexec : exec i s = .next (startGen { s with chain := c }) := by
    rcases hi with ⟨rfl, rfl⟩ | ⟨rfl, rfl⟩
    · rw [exec_gen, whenIdle_idle _ hidle]
    · rw [exec_genrast, whenIdle_idle _ hidle]
  exact ⟨_, hexec, startGen_issue s c⟩

/-! The pole test. -/

/-- Settles O34: where the region test fails, no cell is read. -/
theorem poleTest : Obligations.PoleTest := by
  intro s x y
  refine ⟨?_, fun t hout => ?_⟩
  · rw [isPole, Bool.or_eq_true, Bool.not_eq_true', ← Bool.not_eq_true, inRegion_iff]
  · have hreg : inRegion x y = false := by rwa [← Bool.not_eq_true, inRegion_iff]
    rw [isPole_of_not_inRegion t hreg, isPole_of_not_inRegion s hreg]

/-! The scan. -/

/-- The scan stands at the `k`-th candidate in the order of R76, or has passed all 136. -/
def atCandidate (k : Nat) (s : State) : Prop :=
  (k < 136 ∧ s.cx = 16 - k / 8 ∧ s.cy = k % 8 ∧ s.scanDone = false) ∨ (k = 136 ∧ s.scanDone = true)

theorem atCandidate_zero {s : State} (hcx : s.cx = 16) (hcy : s.cy = 0) (hleft : s.scanDone = false) :
    atCandidate 0 s := .inl ⟨by decide, hcx, hcy, hleft⟩

theorem atCandidate_of_lt {s : State} {k : Nat} (hk : k < 136) (h : atCandidate k s) :
    s.cx = 16 - k / 8 ∧ s.cy = k % 8 ∧ s.scanDone = false := by
  rcases h with ⟨-, h⟩ | ⟨rfl, -⟩
  · exact h
  · exact absurd hk (Nat.lt_irrefl 136)

theorem atCandidate_last {s : State} (h : atCandidate 136 s) : s.scanDone = true := by
  rcases h with ⟨hlt, -⟩ | ⟨-, hdone⟩
  · exact absurd hlt (Nat.lt_irrefl 136)
  · exact hdone

theorem atCandidate_advanceScan {s : State} {k : Nat} (hk : k < 136) (h : atCandidate k s) :
    atCandidate (k + 1) (advanceScan s) := by
  obtain ⟨hcx, hcy, hleft⟩ := atCandidate_of_lt hk h
  unfold atCandidate
  rcases advanceScan_cases s with ⟨hlt, e⟩ | ⟨hge, hpos, e⟩ | ⟨hge, hzero, e⟩ <;> rw [e]
  · exact .inl ⟨by omega, by simp only; omega, by simp only; omega, hleft⟩
  · exact .inl ⟨by omega, by simp only; omega, by simp only; omega, hleft⟩
  · exact .inr ⟨by omega, rfl⟩

theorem atCandidate_iterate {s : State} (h : atCandidate 0 s) {k : Nat} (hk : k ≤ 136) :
    atCandidate k (advanceScan^[k] s) := by
  induction k with
  | zero => exact h
  | succ k ih =>
    rw [Function.iterate_succ_apply']
    exact atCandidate_advanceScan hk (ih (Nat.le_of_lt hk))

/-- The whole state after the scan has advanced (R76; log entry 4 for the last candidate). -/
theorem advanceScan_eq (s : State) : advanceScan s = { s with
    fsm := .genScan
    cx := if s.cy < 7 then s.cx else s.cx - 1
    cy := if s.cy < 7 then s.cy + 1 else if s.cx = 0 then s.cy else 0
    scanDone := s.scanDone || (decide (7 ≤ s.cy) && decide (s.cx = 0)) } := by
  rcases advanceScan_cases s with ⟨hlt, e⟩ | ⟨hge, hpos, e⟩ | ⟨hge, hzero, e⟩ <;> rw [e]
  · simp [hlt, Nat.not_le.mpr hlt]
  · simp [Nat.not_lt.mpr hge, hpos.ne']
  · simp [Nat.not_lt.mpr hge, hge, hzero]

/-- A turn in GEN_SCAN with nothing pending. -/
theorem step_genScan {s : State} (hev : s.events = []) (hbusy : isBusy s = true) (hscan : s.fsm = .genScan) :
    step s = .next (scanStep s) := by
  rw [step_nil hev, engineStep, hbusy, hscan]
  rfl

/-! The three turns of GEN_SCAN (R81 item 2). -/

theorem scanStep_of_done {s : State} (hdone : s.scanDone = true) : scanStep s = finishGen s := by
  simp [scanStep, hdone]

theorem scanStep_of_pole {s : State} (hleft : s.scanDone = false) (hpole : isPole s s.cx s.cy = true) :
    scanStep s = advanceScan s := by
  simp [scanStep, hleft, hpole]

theorem scanStep_of_open {s : State} (hleft : s.scanDone = false) (hopen : isPole s s.cx s.cy = false) :
    scanStep s = startWalk s := by
  simp [scanStep, hleft, hopen]

/-! The two ends of GEN (R73, spec/43_command_control.md R99). -/

theorem finishGen_of_unchained {s : State} (h : s.chain = false) : finishGen s = clearBusy { s with fsm := .idle } :=
  if_neg (by simp [h])

theorem finishGen_of_chained {s : State} (h : s.chain = true) : finishGen s = startRaster s := if_pos h

/-- Settles O35: the order is `atCandidate` along the iteration, and the turns are `scanStep`'s cases. -/
theorem scanOrder : Obligations.ScanOrder := by
  refine ⟨fun s k hcx hcy hleft hk => ?_, fun s hcx hcy hleft => ?_, advanceScan_eq,
    fun s hev hbusy hscan hleft => ⟨fun hpole => ?_, fun hopen => ?_⟩⟩
  · exact atCandidate_of_lt hk (atCandidate_iterate (atCandidate_zero hcx hcy hleft) hk.le)
  · exact atCandidate_last (atCandidate_iterate (atCandidate_zero hcx hcy hleft) le_rfl)
  · rw [step_genScan hev hbusy hscan, scanStep_of_pole hleft hpole, advanceScan_eq, hleft, Bool.false_or, ← hscan]
  · rw [step_genScan hev hbusy hscan, scanStep_of_open hleft hopen, startWalk]

/-- Settles O38: the turn is `finishGen`, which looks at CHAIN alone. -/
theorem scanEndFinishesGen : Obligations.ScanEndFinishesGen := by
  intro s hev hbusy hscan hdone
  rw [step_genScan hev hbusy hscan, scanStep_of_done hdone]
  refine ⟨fun hchain => ?_, fun hchain => ?_⟩
  · rw [finishGen_of_unchained hchain]
    rfl
  · rw [finishGen_of_chained hchain]
    rfl

/-! One draw of a walk. -/

/-- A turn in GEN_WALK with nothing pending. -/
theorem step_genWalk {s : State} {x y : Nat} (hev : s.events = []) (hbusy : isBusy s = true) (hwalk : s.fsm = .genWalk)
    (hcur : CursorAt s x y) : step s = .next (walkPass s) := by
  rw [step_nil hev, engineStep, hbusy, hwalk]
  exact walkStep_next.mpr ⟨inGrid_of_inRegion hcur.inRegion, rfl⟩

/-- The draw of a pass is made from the generator as it stands (R65). -/
theorem drawnDirection_eq (s : State) : drawnDirection s = directionOf (s.pb ++ insertedBit s.sr) :=
  congrArg directionOf (nextDirection_dir_append s)

/-- The generator after a pass, its registers written as bits side by side. -/
theorem drawn_eq (s : State) : drawn s = { s with
    sr := s.sr.extractLsb' 0 7 ++ insertedBit s.sr, pb := insertedBit s.sr, dir := s.pb ++ insertedBit s.sr,
    mem := (drawn s).mem } := nextDirection_eq _

/-- Settles O36: the draw is blocked by the wall before the mark, and only the mark is written. -/
theorem blockedDraw : Obligations.BlockedDraw := by
  intro s x y r2 hev hbusy hwalk hx hy hxle hyle hr2 hbit
  obtain rfl : r2 = insertedBit s.sr := hr2
  have hcur : CursorAt s x y := ⟨hx, hy, hxle, hyle⟩
  have hblocked : isBlocked s x y (drawnDirection s) = true := by
    rw [isBlocked_eq s _ hxle hyle, drawnDirection_eq]
    exact hbit
  have harrays : sameArrays (drawn s) (retryDraw (drawn s)) := by
    rw [retryDraw_frame]
    exact ⟨rfl, rfl⟩
  refine ⟨retryDraw (drawn s), ?_, ?_, fun b hb => ?_, fun hne => ?_, fun hcap => ?_⟩
  · rw [step_genWalk hev hbusy hwalk hcur, walkPass_of_blocked hcur hblocked]
  · rw [harrays.wallRead, wallRead_drawn hcur (Nat.le_succ_of_le hxle), if_pos ⟨rfl, rfl⟩]
  · rw [harrays.readByte, readByte_drawn_other hcur hb]
  · rcases retryDraw_cases (drawn s) with ⟨hcap, -⟩ | ⟨-, e⟩
    · exact absurd hcap hne
    · rw [e, drawn_eq]
  · rcases retryDraw_cases (drawn s) with ⟨-, e⟩ | ⟨hne, -⟩
    · rw [e, drawn_eq]
      rfl
    · exact absurd hcap hne

/-- The whole state after an open draw, the bytes of WALL aside. -/
theorem afterCarve_eq (s : State) : afterCarve s = { s with
    sr := s.sr.extractLsb' 0 7 ++ insertedBit s.sr, pb := insertedBit s.sr, dir := s.pb ++ insertedBit s.sr,
    mem := (afterCarve s).mem, retry := 0,
    x := s.x + (offsetOf (drawnDirection s)).1, y := s.y + (offsetOf (drawnDirection s)).2 } := by
  rw [← shiftedSr_eq_append, ← nextDirection_dir_append]
  exact afterCarve_frame s

/-- Settles O37: the state after the carve is the same for both ends; the pole test chooses between them. -/
theorem openDraw : Obligations.OpenDraw := by
  intro s x y r2 d hev hbusy hwalk hx hy hxle hyle hr2 hcode hbit
  obtain rfl : r2 = insertedBit s.sr := hr2
  have hcur : CursorAt s x y := ⟨hx, hy, hxle, hyle⟩
  obtain rfl : drawnDirection s = d := by rw [drawnDirection_eq, ← hcode, directionOf_codeOf]
  have hopen : isBlocked s x y (drawnDirection s) = false := by rw [isBlocked_eq s _ hxle hyle, hbit]
  have hpass := walkPass_of_open hcur hopen
  have harrays : sameArrays (afterCarve s) (walkPass s) := by
    rw [hpass]
    split_ifs
    · exact sameArrays_advanceScan _
    · exact ⟨rfl, rfl⟩
  refine ⟨walkPass s, afterCarve s, step_genWalk hev hbusy hwalk hcur, ?_, fun hpole => ?_, fun hfree => ?_,
    fun x' y' hx' _ => ?_, fun b hb hb' => ?_⟩
  · rw [harrays.1]
    exact afterCarve_eq s
  · rw [hpass, hpole, if_pos rfl, advanceScan_eq, afterCarve_cx, afterCarve_cy, afterCarve_scanDone]
  · rw [hpass, hfree, if_neg Bool.false_ne_true]
  · rw [harrays.wallRead, wallRead_afterCarve hcur hx']
  · rw [harrays.readByte, readByte_afterCarve_other hcur hb hb']

end Sys2Proof.Machine

/-! # GEN completes

Each turn of a running GEN lowers a measure: a candidate is left behind, a cell is marked that was not, or the retries at a
cell, which are at most 7 (spec/41_maze_carver.md R85), come closer to their end. -/

namespace Sys2Proof.Machine

/-! Runs of the machine. -/

theorem runsTo_zero (s : State) : runsTo 0 s s := rfl

theorem run_succ_iff (M : Host.Core) {n : Nat} {s t : M.State} :
    M.run (n + 1) s = .next t ↔ ∃ u, M.step s = .next u ∧ M.run n u = .next t := by
  rw [Host.Core.run]
  cases M.step s <;> simp

theorem runsTo_succ_iff {n : Nat} {s t : State} : runsTo (n + 1) s t ↔ ∃ u, step s = .next u ∧ runsTo n u t :=
  run_succ_iff Sys2Proof.core

theorem runsTo_one {s t : State} (h : step s = .next t) : runsTo 1 s t := runsTo_succ_iff.mpr ⟨t, h, rfl⟩

theorem runsTo_trans {m n : Nat} {s t u : State} (h : runsTo m s t) (h' : runsTo n t u) : runsTo (m + n) s u := by
  induction m generalizing s with
  | zero =>
    obtain rfl : s = t := Host.Outcome.next.inj h
    rwa [Nat.zero_add]
  | succ m ih =>
    obtain ⟨v, hstep, hrun⟩ := runsTo_succ_iff.mp h
    rw [Nat.succ_add]
    exact runsTo_succ_iff.mpr ⟨v, hstep, ih hrun⟩

/-! What a running GEN leaves unchanged. -/

/-- The fields no turn of a running GEN touches, and the bytes outside WALL. -/
structure KeptByGen (s t : State) : Prop where
  seed : t.seed = s.seed
  status : t.status = s.status
  chain : t.chain = s.chain
  blockX : t.blockX = s.blockX
  blockY : t.blockY = s.blockY
  epoch : t.epoch = s.epoch
  freeReads : t.freeReads = s.freeReads
  events : t.events = s.events
  answers : t.answers = s.answers
  bytes : ∀ b, b < 0x100 ∨ 0x1A1 < b → readByte t b = readByte s b

namespace KeptByGen

variable {s t u : State}

theorem refl (s : State) : KeptByGen s s := ⟨rfl, rfl, rfl, rfl, rfl, rfl, rfl, rfl, rfl, fun _ _ => rfl⟩

theorem trans (h : KeptByGen s t) (h' : KeptByGen t u) : KeptByGen s u where
  seed := h'.seed.trans h.seed
  status := h'.status.trans h.status
  chain := h'.chain.trans h.chain
  blockX := h'.blockX.trans h.blockX
  blockY := h'.blockY.trans h.blockY
  epoch := h'.epoch.trans h.epoch
  freeReads := h'.freeReads.trans h.freeReads
  events := h'.events.trans h.events
  answers := h'.answers.trans h.answers
  bytes := fun b hb => (h'.bytes b hb).trans (h.bytes b hb)

/-- The other fields say the rest. -/
theorem eq (h : KeptByGen s t) : t = { s with
    sr := t.sr, pb := t.pb, dir := t.dir, mem := t.mem, fsm := t.fsm, x := t.x, y := t.y, cx := t.cx, cy := t.cy,
    retry := t.retry, scanDone := t.scanDone } := by
  rw [← h.seed, ← h.status, ← h.chain, ← h.blockX, ← h.blockY, ← h.epoch, ← h.freeReads, ← h.events, ← h.answers]

theorem advanceScan (s : State) : KeptByGen s (advanceScan s) := by
  have hbytes := (sameArrays_advanceScan s).readByte
  rw [advanceScan_frame] at hbytes ⊢
  exact ⟨rfl, rfl, rfl, rfl, rfl, rfl, rfl, rfl, rfl, fun b _ => hbytes b⟩

theorem drawn {x y : Nat} (hcur : CursorAt s x y) (n : Nat) : KeptByGen s { drawn s with retry := n } := by
  refine ⟨rfl, rfl, rfl, rfl, rfl, rfl, rfl, rfl, rfl, fun b hb => readByte_drawn_other hcur ?_⟩
  have hx := hcur.x_le
  have hy := hcur.y_le
  unfold wallAddr
  omega

theorem afterCarve {x y : Nat} (hcur : CursorAt s x y) : KeptByGen s (afterCarve s) := by
  have hbytes (b : Nat) (hb : b < 0x100 ∨ 0x1A1 < b) : readByte (Machine.afterCarve s) b = readByte s b := by
    have hx := hcur.x_le
    have hy := hcur.y_le
    obtain ⟨hox, hoy⟩ := edgeOwner_inGrid (drawnDirection s) hx hy
    refine readByte_afterCarve_other hcur ?_ ?_ <;> unfold wallAddr <;> omega
  rw [afterCarve_frame] at hbytes ⊢
  exact ⟨rfl, rfl, rfl, rfl, rfl, rfl, rfl, rfl, rfl, hbytes⟩

end KeptByGen

theorem GenTurn.kept {s t : State} (turn : GenTurn s t) (hgen : inGen t) : KeptByGen s t := by
  cases turn with
  | finished => exact absurd hgen (not_inGen_finishGen s)
  | aborted => exact absurd hgen (not_inGen_of_idle rfl)
  | skipped => exact .advanceScan s
  | started => exact ⟨rfl, rfl, rfl, rfl, rfl, rfl, rfl, rfl, rfl, fun _ _ => rfl⟩
  | retried _ hcur => exact .drawn hcur _
  | ended _ hcur => exact (KeptByGen.afterCarve hcur).trans (.advanceScan _)
  | moved _ hcur => exact .afterCarve hcur

/-! Everything known of a running GEN. -/

/-- A GEN that runs as the invariants say; a walk with no retry counted has not marked its cell yet. -/
structure RunningGen (s : State) : Prop where
  running : inGen s
  state : StateInv s
  cover : CoverInv s
  edge : EdgeInv s
  retry : RetryInv s
  fresh : s.fsm = .genWalk → s.retry = 0 → visited s s.x.toNat s.y.toNat = false

theorem runningGen_startGen {s : State} (h : StateInv s) (c : Bool) : RunningGen (startGen { s with chain := c }) where
  running := .inl (startGen_fsm _)
  state := h.startGen c
  cover := coverInv_startGen _
  edge := edgeInv_startGen _
  retry := retryInv_of_not_genWalk (not_genWalk_of_genScan (startGen_fsm _))
  fresh := fun hw => absurd hw (not_genWalk_of_genScan (startGen_fsm _))

/-- A turn that is not the last neither finishes nor aborts GEN. -/
theorem RunningGen.inGen_after {s t : State} (h : RunningGen s) (turn : GenTurn s t) (hleft : s.scanDone = false) :
    inGen t := by
  cases turn with
  | finished _ hdone => exact absurd (hleft.symm.trans hdone) Bool.false_ne_true
  | aborted hwalk hcur hblocked hcap => exact absurd hcap (h.retry.retry_ne_cap h.edge hwalk hcur hblocked)
  | skipped | ended => exact .inl (advanceScan_fsm _)
  | started => exact .inr rfl
  | retried hwalk => exact .inr hwalk
  | moved hwalk => exact .inr ((afterCarve_fsm s).trans hwalk)

/-- A walk comes to a cell before it marks it. -/
theorem GenTurn.fresh {s t : State} (turn : GenTurn s t) (hwalk : t.fsm = .genWalk) (hretry : t.retry = 0) :
    visited t t.x.toNat t.y.toNat = false := by
  cases turn with
  | finished => exact absurd (.inr hwalk) (not_inGen_finishGen s)
  | aborted => cases hwalk
  | skipped | ended => exact absurd hwalk (not_genWalk_of_genScan (advanceScan_fsm _))
  | started _ _ hnew => exact hnew
  | retried => cases hretry
  | moved _ hcur _ hcur' hnew =>
    rw [hcur'.x_toNat, hcur'.y_toNat, visited_afterCarve_neighbour hcur hcur', hnew]

theorem RunningGen.genTurn {s t : State} (h : RunningGen s) (hturn : engineStep s = .next t) (turn : GenTurn s t)
    (hleft : s.scanDone = false) : RunningGen t where
  running := h.inGen_after turn hleft
  state := h.state.engineStep hturn
  cover := h.cover.genTurn h.state turn
  edge := h.edge.genTurn h.state turn
  retry := h.retry.genTurn h.state h.edge turn
  fresh := turn.fresh

/-! The measure. -/

/-- How many candidates the scan has still to test, the present one included (R76). -/
def candidatesLeft (s : State) : Nat := if s.scanDone then 0 else 8 * s.cx + (8 - s.cy)

theorem candidatesLeft_advanceScan {s : State} (hcy : s.cy ≤ 7) (hleft : s.scanDone = false) :
    candidatesLeft (advanceScan s) + 1 = candidatesLeft s := by
  rcases advanceScan_cases s with ⟨hlt, e⟩ | ⟨hge, hpos, e⟩ | ⟨hge, hzero, e⟩ <;> rw [e] <;>
    simp only [candidatesLeft, hleft, Bool.false_eq_true, if_false, if_true] <;> omega

theorem candidatesLeft_afterCarve (s : State) : candidatesLeft (afterCarve s) = candidatesLeft s := by
  simp only [candidatesLeft, afterCarve_scanDone, afterCarve_cx, afterCarve_cy]

/-- The cells still to be marked. -/
def unvisitedCells (s : State) : Finset (Nat × Nat) :=
  (Finset.range 18 ×ˢ Finset.range 9).filter fun c => visited s c.1 c.2 = false

theorem mem_unvisitedCells {s : State} {x y : Nat} :
    (x, y) ∈ unvisitedCells s ↔ (x < 18 ∧ y < 9) ∧ visited s x y = false := by
  simp [unvisitedCells]

/-- A turn marks cells and unmarks none. -/
theorem GenTurn.unvisitedCells_subset {s t : State} (turn : GenTurn s t) : unvisitedCells t ⊆ unvisitedCells s := by
  rintro ⟨x, y⟩ hc
  rw [mem_unvisitedCells, ← Bool.not_eq_true] at hc ⊢
  obtain ⟨hin, hnew⟩ := hc
  exact ⟨hin, mt (turn.visited_mono (Nat.le_of_lt_succ hin.1)) hnew⟩

/-- A turn that marks an unvisited cell leaves fewer of them. -/
theorem GenTurn.card_unvisitedCells_lt {s t : State} (turn : GenTurn s t) {x y : Nat} (hcur : CursorAt s x y)
    (hnew : visited s x y = false) (hmark : visited t x y = true) :
    (unvisitedCells t).card < (unvisitedCells s).card := by
  have hx := hcur.x_le
  have hy := hcur.y_le
  refine Finset.card_lt_card ⟨turn.unvisitedCells_subset, fun hsub => ?_⟩
  have hmem : (x, y) ∈ unvisitedCells s := mem_unvisitedCells.mpr ⟨by omega, hnew⟩
  exact absurd ((mem_unvisitedCells.mp (hsub hmem)).2.symm.trans hmark) Bool.false_ne_true

/-- How far the engine is from its next mark or candidate: before a walk, at a fresh cell, or after some of the at most 7
retries (R85). -/
def retriesLeft (s : State) : Nat := if s.fsm = .genScan then 1 else if s.retry = 0 then 0 else 8 - s.retry

theorem retriesLeft_of_genScan {s : State} (h : s.fsm = .genScan) : retriesLeft s = 1 := if_pos h

theorem retriesLeft_of_genWalk {s : State} (h : s.fsm = .genWalk) :
    retriesLeft s = if s.retry = 0 then 0 else 8 - s.retry := if_neg (not_genWalk_of_genScan · h)

/-- What every turn of a running GEN but the last lowers. -/
def genMeasure (s : State) : Nat := 32 * candidatesLeft s + 16 * (unvisitedCells s).card + retriesLeft s

/-- The pass at a fresh cell marks it; at a marked one the retries are few. -/
theorem RunningGen.unvisited_and_retries {s t : State} (h : RunningGen s) (turn : GenTurn s t) {x y : Nat}
    (hwalk : s.fsm = .genWalk) (hcur : CursorAt s x y) (hmark : visited t x y = true) :
    (s.retry = 0 ∧ (unvisitedCells t).card < (unvisitedCells s).card) ∨ (0 < s.retry ∧ s.retry ≤ 7) := by
  rcases Nat.eq_zero_or_pos s.retry with hzero | hpos
  · have hnew := h.fresh hwalk hzero
    rw [hcur.x_toNat, hcur.y_toNat] at hnew
    exact .inl ⟨hzero, turn.card_unvisitedCells_lt hcur hnew hmark⟩
  · exact .inr ⟨hpos, (h.retry.blocked_run hwalk hpos).1⟩

theorem RunningGen.genMeasure_lt {s t : State} (h : RunningGen s) (turn : GenTurn s t) (hleft : s.scanDone = false) :
    genMeasure t < genMeasure s := by
  have hcy := h.state.candidate.2
  have hcells := Finset.card_le_card turn.unvisitedCells_subset
  have hagain := turn
  unfold genMeasure
  cases turn with
  | finished _ hdone => exact absurd (hleft.symm.trans hdone) Bool.false_ne_true
  | aborted hwalk hcur hblocked hcap => exact absurd hcap (h.retry.retry_ne_cap h.edge hwalk hcur hblocked)
  | skipped hscan =>
    have hcand := candidatesLeft_advanceScan hcy hleft
    rw [retriesLeft_of_genScan hscan, retriesLeft_of_genScan (advanceScan_fsm s)]
    omega
  | started hscan =>
    have hcand : candidatesLeft (startWalk s) = candidatesLeft s := rfl
    rw [retriesLeft_of_genScan hscan, retriesLeft_of_genWalk (startWalk_fsm s), startWalk_retry, if_pos rfl]
    omega
  | retried hwalk hcur hblocked =>
    have hlt := h.retry.retry_lt_of_blocked h.edge hwalk hcur hblocked
    have hcand : candidatesLeft { drawn s with retry := s.retry + 1 } = candidatesLeft s := rfl
    have hrank : retriesLeft { drawn s with retry := s.retry + 1 } = 7 - s.retry := by
      rw [retriesLeft_of_genWalk (s := { drawn s with retry := s.retry + 1 }) hwalk, if_neg (Nat.succ_ne_zero _)]
      exact Nat.add_sub_add_right 7 1 s.retry
    rw [hcand, hrank, retriesLeft_of_genWalk hwalk]
    rcases h.unvisited_and_retries hagain hwalk hcur (visited_drawn_cursor hcur) with ⟨hzero, hfewer⟩ | ⟨hpos, hle⟩
    · omega
    · rw [if_neg hpos.ne']
      omega
  | ended hwalk hcur =>
    have hcand := candidatesLeft_advanceScan (s := afterCarve s) (by rwa [afterCarve_cy]) (by rwa [afterCarve_scanDone])
    rw [candidatesLeft_afterCarve] at hcand
    rw [retriesLeft_of_genScan (advanceScan_fsm _)]
    omega
  | moved hwalk hcur =>
    rw [candidatesLeft_afterCarve, retriesLeft_of_genWalk ((afterCarve_fsm s).trans hwalk), afterCarve_retry, if_pos rfl,
      retriesLeft_of_genWalk hwalk]
    rcases h.unvisited_and_retries hagain hwalk hcur (visited_afterCarve_cursor hcur) with ⟨hzero, hfewer⟩ | ⟨hpos, hle⟩
    · omega
    · rw [if_neg hpos.ne']
      omega

/-! The end of the scan. -/

/-- A running GEN comes to the end of its scan, the invariants holding and nothing but the carver's state touched. -/
theorem RunningGen.exists_scanEnd {s : State} (h : RunningGen s) (hev : s.events = []) :
    ∃ n t, runsTo n s t ∧ RunningGen t ∧ t.fsm = .genScan ∧ t.scanDone = true ∧ KeptByGen s t := by
  induction hm : genMeasure s using Nat.strong_induction_on generalizing s with
  | _ m ih =>
    subst hm
    cases hdone : s.scanDone with
    | true =>
      have hscan : s.fsm = .genScan := h.running.resolve_right fun hwalk =>
        Bool.false_ne_true ((h.state.walking hwalk).2.2.symm.trans hdone)
      exact ⟨0, s, runsTo_zero s, h, hscan, hdone, .refl s⟩
    | false =>
      obtain ⟨u, hturn, turn⟩ := exists_genTurn h.state h.running
      have hu := h.genTurn hturn turn hdone
      have hkept := turn.kept hu.running
      obtain ⟨n, t, hrun, ht, hscan, hend, hkept'⟩ :=
        ih (genMeasure u) (h.genMeasure_lt turn hdone) hu (hkept.events.trans hev) rfl
      exact ⟨n + 1, t, runsTo_succ_iff.mpr ⟨u, (step_nil hev).trans hturn, hrun⟩, ht, hscan, hend, hkept.trans hkept'⟩

/-- At the end of the scan every cell is visited (R87). -/
theorem CoverInv.visited_of_scanDone {s : State} (h : CoverInv s) (hscan : s.fsm = .genScan) (hdone : s.scanDone = true)
    {x y : Nat} (hx : x ≤ 17) (hy : y ≤ 8) : visited s x y = true := by
  by_cases hborder : y = 8 ∨ x = 17
  · exact h.border (.inl hscan) x y hx hy hborder
  · exact h.scanned (.inl hscan) x y (by omega) (by omega) (.inl hdone)

/-- BUSY set and cleared again leaves STATUS as it was. -/
theorem clearBusy_status_setBusy {s : State} (h : isBusy s = false) : (s.status ||| 0x01) &&& 0xFE = s.status := by
  have table : ∀ v : Byte, v.getLsbD 0 = false → (v ||| 0x01) &&& 0xFE = v := by decide
  exact table s.status h

/-- Settles O51: GEN comes to the end of its scan, and one more turn finishes it, CHAIN being 0 in an idle block. -/
theorem genCoversTheGrid : Obligations.GenCoversTheGrid := by
  intro s hinv hidle hev
  have hfsm := hinv.isBusy_false_iff.mp hidle
  obtain ⟨n, u, hrun, hu, hscan, hdone, hkept⟩ :=
    (runningGen_startGen hinv s.chain).exists_scanEnd (by rw [startGen_frame, hev])
  obtain ⟨hframe, -, hbytes⟩ := startGen_issue s s.chain
  have hchain : u.chain = false := by rw [hkept.chain, hframe, hinv.chain_idle hfsm]
  have hbusy := hu.state.isBusy_of_inGen hu.running
  have hlast : step u = .next (clearBusy { u with fsm := .idle }) := by
    rw [step_genScan (by rw [hkept.events, hframe, hev]) hbusy hscan, scanStep_of_done hdone, finishGen_of_unchained hchain]
  refine ⟨startGen s, n + 1, clearBusy { u with fsm := .idle }, by rw [exec_gen, whenIdle_idle _ hidle],
    runsTo_trans hrun (runsTo_one hlast), isBusy_clearBusy _, ?_, fun b hb => (hkept.bytes b hb).trans (hbytes b hb),
    fun x y hx hy => hu.cover.visited_of_scanDone hscan hdone hx hy, hu.cover.bottom_row (.inl hscan),
    hu.cover.right_column (.inl hscan)⟩
  have hu_eq := hkept.eq
  rw [hframe] at hu_eq
  rw [hu_eq, hdone, clearBusy, clearBusy_status_setBusy hidle, hfsm]

end Sys2Proof.Machine

/-! # GEN is a function of the seed (spec/41_maze_carver.md R82)

Two GENs that agree in the generator, the walls, the scan and, during a walk, the cursor and RETRY agree in them after a turn
of each: nothing else is read. -/

namespace Sys2Proof.Machine

/-- A GEN that no RAST follows, running or over, with nothing pending. -/
structure GenAlone (s : State) : Prop where
  state : StateInv s
  events : s.events = []
  chain : s.chain = false
  phase : s.fsm = .idle ∨ inGen s

/-- Two GENs that every turn takes alike. DIR, X, Y and RETRY are written before they are read. -/
structure SameGen (s u : State) : Prop where
  fsm : u.fsm = s.fsm
  sr : u.sr = s.sr
  pb : u.pb = s.pb
  cx : u.cx = s.cx
  cy : u.cy = s.cy
  scanDone : u.scanDone = s.scanDone
  walk : s.fsm = .genWalk → u.x = s.x ∧ u.y = s.y ∧ u.retry = s.retry
  walls : ∀ x y, x ≤ 17 → y ≤ 8 → wallRead u x y = wallRead s x y

theorem StateInv.isBusy_congr {s u : State} (hs : StateInv s) (hu : StateInv u) (h : u.fsm = s.fsm) :
    isBusy u = isBusy s := by
  rw [Bool.eq_iff_iff, hu.busy_iff, hs.busy_iff, h]

/-! A GEN alone. -/

theorem genAlone_startGen {s : State} (hinv : StateInv s) (hidle : isBusy s = false) (hev : s.events = []) :
    GenAlone (startGen s) where
  state := hinv.startGen s.chain
  events := by rw [startGen_frame, hev]
  chain := by rw [startGen_frame, hinv.chain_idle (hinv.isBusy_false_iff.mp hidle)]
  phase := .inr (.inl (startGen_fsm s))

/-- An idle block keeps still. -/
theorem step_idle {s : State} (hev : s.events = []) (hidle : isBusy s = false) : step s = .next s := by
  rw [step_nil hev, engineStep, hidle]
  rfl

theorem GenTurn.phase_of_unchained {s t : State} (turn : GenTurn s t) (h : s.chain = false) :
    t.chain = false ∧ (t.fsm = .idle ∨ inGen t) := by
  have running (hgen : inGen t) : t.chain = false ∧ (t.fsm = .idle ∨ inGen t) := ⟨(turn.kept hgen).chain.trans h, .inr hgen⟩
  cases turn with
  | finished =>
    rw [finishGen_of_unchained h]
    exact ⟨h, .inl rfl⟩
  | aborted => exact ⟨rfl, .inl rfl⟩
  | skipped | ended => exact running (.inl (advanceScan_fsm _))
  | started => exact running (.inr rfl)
  | retried hwalk => exact running (.inr hwalk)
  | moved hwalk => exact running (.inr ((afterCarve_fsm s).trans hwalk))

namespace GenAlone

variable {s : State}

theorem exists_step (h : GenAlone s) : ∃ t, step s = .next t ∧ GenAlone t := by
  rcases h.phase with hidle | hgen
  · exact ⟨s, step_idle h.events (h.state.isBusy_false_iff.mpr hidle), h⟩
  · obtain ⟨t, hturn, turn⟩ := exists_genTurn h.state hgen
    obtain ⟨hchain, hphase⟩ := turn.phase_of_unchained h.chain
    exact ⟨t, (step_nil h.events).trans hturn, h.state.engineStep hturn, (engineStep_events hturn).trans h.events,
      hchain, hphase⟩

end GenAlone

/-! Turns taken alike. -/

namespace SameGen

variable {s u : State} {x y : Nat}

theorem visited (h : SameGen s u) (hx : x ≤ 17) (hy : y ≤ 8) : visited u x y = visited s x y :=
  congrArg (BitVec.getLsbD · 0) (h.walls x y hx hy)

theorem isBlocked (h : SameGen s u) (hx : x ≤ 16) (hy : y ≤ 7) (d : Direction) :
    isBlocked u x y d = isBlocked s x y d := by
  obtain ⟨hox, hoy⟩ := edgeOwner_inGrid d hx hy
  rw [isBlocked_eq u d hx hy, isBlocked_eq s d hx hy, h.walls _ _ hox hoy]

theorem isPole (h : SameGen s u) (x y : Int) : isPole u x y = isPole s x y := by
  cases hreg : inRegion x y
  · rw [isPole_of_not_inRegion u hreg, isPole_of_not_inRegion s hreg]
  · have hpos := inRegion_iff.mp hreg
    rw [Machine.isPole, Machine.isPole, h.walls _ _ (by omega) (by omega)]

theorem drawnDirection (h : SameGen s u) : drawnDirection u = drawnDirection s := by
  rw [drawnDirection_eq, drawnDirection_eq, h.pb, h.sr]

theorem cursorAt (h : SameGen s u) (hwalk : s.fsm = .genWalk) (hcur : CursorAt s x y) : CursorAt u x y := by
  obtain ⟨hx, hy, -⟩ := h.walk hwalk
  exact ⟨hx.trans hcur.x_eq, hy.trans hcur.y_eq, hcur.x_le, hcur.y_le⟩

theorem finishGen (h : SameGen s u) (hs : s.chain = false) (hu : u.chain = false) :
    SameGen (finishGen s) (finishGen u) := by
  rw [finishGen_of_unchained hs, finishGen_of_unchained hu]
  exact { h with fsm := rfl, walk := fun hf => by cases hf }

theorem advanceScan (h : SameGen s u) : SameGen (advanceScan s) (advanceScan u) := by
  have hwalls (x y : Nat) (hx : x ≤ 17) (hy : y ≤ 8) :
      wallRead (Machine.advanceScan u) x y = wallRead (Machine.advanceScan s) x y := by
    rw [(sameArrays_advanceScan u).wallRead, (sameArrays_advanceScan s).wallRead, h.walls x y hx hy]
  rw [advanceScan_eq u, advanceScan_eq s, h.cx, h.cy, h.scanDone] at hwalls ⊢
  exact { h with fsm := rfl, cx := rfl, cy := rfl, scanDone := rfl, walls := hwalls, walk := fun hf => by cases hf }

theorem startWalk (h : SameGen s u) : SameGen (startWalk s) (startWalk u) := by
  unfold Machine.startWalk
  rw [h.cx, h.cy]
  exact { h with fsm := rfl, cx := rfl, cy := rfl, walk := fun _ => ⟨rfl, rfl, rfl⟩ }

theorem scanStep (h : SameGen s u) (hs : s.chain = false) (hu : u.chain = false) :
    SameGen (scanStep s) (scanStep u) := by
  have hdone := h.scanDone
  have hpole : Machine.isPole u u.cx u.cy = Machine.isPole s s.cx s.cy := by rw [h.isPole, h.cx, h.cy]
  rcases scanStep_cases s with ⟨hd, e⟩ | ⟨hd, hp, e⟩ | ⟨hd, hp, e⟩ <;> rw [e]
  · rw [scanStep_of_done (hdone.trans hd)]
    exact h.finishGen hs hu
  · rw [scanStep_of_pole (hdone.trans hd) (hpole.trans hp)]
    exact h.advanceScan
  · rw [scanStep_of_open (hdone.trans hd) (hpole.trans hp)]
    exact h.startWalk

theorem drawn (h : SameGen s u) (hwalk : s.fsm = .genWalk) (hcur : CursorAt s x y) : SameGen (drawn s) (drawn u) :=
  { h with
    sr := congrArg shiftedSr h.sr
    pb := congrArg insertedBit h.sr
    walls := fun x' y' hx' hy' => by
      rw [wallRead_drawn hcur hx', wallRead_drawn (h.cursorAt hwalk hcur) hx', h.walls x' y' hx' hy'] }

theorem retryDraw (h : SameGen s u) (hwalk : s.fsm = .genWalk) : SameGen (retryDraw s) (retryDraw u) := by
  obtain ⟨hx, hy, hretry⟩ := h.walk hwalk
  rcases retryDraw_cases s with ⟨hc, e⟩ | ⟨hc, e⟩ <;> rcases retryDraw_cases u with ⟨hc', e'⟩ | ⟨hc', e'⟩ <;>
    rw [hretry] at hc' <;> rw [e, e']
  · exact { h with fsm := rfl, walk := fun hf => by cases hf }
  · exact absurd hc hc'
  · exact absurd hc' hc
  · exact { h with walk := fun _ => ⟨hx, hy, congrArg (· + 1) hretry⟩ }

theorem afterCarve (h : SameGen s u) (hwalk : s.fsm = .genWalk) (hcur : CursorAt s x y) :
    SameGen (afterCarve s) (afterCarve u) := by
  obtain ⟨hx, hy, -⟩ := h.walk hwalk
  have hwalls (x' y' : Nat) (hx' : x' ≤ 17) (hy' : y' ≤ 8) :
      wallRead (Machine.afterCarve u) x' y' = wallRead (Machine.afterCarve s) x' y' := by
    rw [wallRead_afterCarve hcur hx', wallRead_afterCarve (h.cursorAt hwalk hcur) hx', h.drawnDirection,
      h.walls x' y' hx' hy']
  refine ⟨?_, ?_, ?_, ?_, ?_, ?_, fun _ => ⟨?_, ?_, ?_⟩, hwalls⟩ <;>
    simp only [afterCarve_fsm, afterCarve_sr, afterCarve_pb, afterCarve_cx, afterCarve_cy, afterCarve_scanDone,
      afterCarve_x, afterCarve_y, afterCarve_retry, h.fsm, h.sr, h.cx, h.cy, h.scanDone, h.drawnDirection, hx, hy]

theorem walkPass (h : SameGen s u) (hwalk : s.fsm = .genWalk) (hcur : CursorAt s x y) :
    SameGen (walkPass s) (walkPass u) := by
  have hcur' := h.cursorAt hwalk hcur
  have hblocked := h.isBlocked hcur.x_le hcur.y_le (Machine.drawnDirection s)
  cases hb : Machine.isBlocked s x y (Machine.drawnDirection s)
  · have hcarved := h.afterCarve hwalk hcur
    obtain ⟨hx, hy, -⟩ := hcarved.walk ((afterCarve_fsm s).trans hwalk)
    rw [walkPass_of_open hcur hb, walkPass_of_open hcur' (by rw [h.drawnDirection, hblocked, hb]), h.isPole, hx, hy]
    split_ifs
    · exact hcarved.advanceScan
    · exact hcarved
  · rw [walkPass_of_blocked hcur hb, walkPass_of_blocked hcur' (by rw [h.drawnDirection, hblocked, hb])]
    exact (h.drawn hwalk hcur).retryDraw hwalk

theorem step {t v : State} (h : SameGen s u) (hs : GenAlone s) (hu : GenAlone u) (hst : Machine.step s = .next t)
    (huv : Machine.step u = .next v) : SameGen t v := by
  have unique {s t t' : State} (e : Machine.step s = .next t) (e' : Machine.step s = .next t') : t = t' :=
    Host.Outcome.next.inj (e.symm.trans e')
  rcases hs.phase with hidle | hgen
  · rw [unique hst (step_idle hs.events (hs.state.isBusy_false_iff.mpr hidle)),
      unique huv (step_idle hu.events (hu.state.isBusy_false_iff.mpr (h.fsm.trans hidle)))]
    exact h
  · have hbusy := hs.state.isBusy_of_inGen hgen
    have hbusy' := (hs.state.isBusy_congr hu.state h.fsm).trans hbusy
    rcases hgen with hscan | hwalk
    · rw [unique hst (step_genScan hs.events hbusy hscan), unique huv (step_genScan hu.events hbusy' (h.fsm.trans hscan))]
      exact h.scanStep hs.chain hu.chain
    · obtain ⟨x, y, hcur⟩ := exists_cursorAt (hs.state.walking hwalk).1
      rw [unique hst (step_genWalk hs.events hbusy hwalk hcur),
        unique huv (step_genWalk hu.events hbusy' (h.fsm.trans hwalk) (h.cursorAt hwalk hcur))]
      exact h.walkPass hwalk hcur

/-- Runs of the same length lead to states that agree still. -/
theorem exists_runs (n : Nat) (h : SameGen s u) (hs : GenAlone s) (hu : GenAlone u) :
    ∃ t v, runsTo n s t ∧ runsTo n u v ∧ SameGen t v ∧ GenAlone t ∧ GenAlone v := by
  induction n generalizing s u with
  | zero => exact ⟨s, u, runsTo_zero s, runsTo_zero u, h, hs, hu⟩
  | succ n ih =>
    obtain ⟨s', hst, hs'⟩ := hs.exists_step
    obtain ⟨u', hut, hu'⟩ := hu.exists_step
    obtain ⟨t, v, hrun, hrun', hrest⟩ := ih (h.step hs hu hst hut) hs' hu'
    exact ⟨t, v, runsTo_succ_iff.mpr ⟨s', hst, hrun⟩, runsTo_succ_iff.mpr ⟨u', hut, hrun'⟩, hrest⟩

end SameGen

/-- The issue makes everything agree that GEN reads. -/
theorem sameGen_startGen {s u : State} (hseed : u.seed = s.seed) : SameGen (startGen s) (startGen u) := by
  have hwalls (x y : Nat) (hx : x ≤ 17) (hy : y ≤ 8) : wallRead (startGen u) x y = wallRead (startGen s) x y := by
    rw [wallRead_startGen u hx hy, wallRead_startGen s hx hy]
  refine ⟨?_, ?_, ?_, ?_, ?_, ?_, fun hwalk => absurd hwalk (not_genWalk_of_genScan (startGen_fsm s)), hwalls⟩ <;>
    rw [startGen_frame u, startGen_frame s]
  · exact hseed
  · exact congrArg (BitVec.extractLsb' 0 1) hseed

/-- Settles O52: the two issues agree in all that GEN reads, and so do the runs from them. -/
theorem genIsAFunctionOfTheSeed : Obligations.GenIsAFunctionOfTheSeed := by
  intro s u n hs hu hidle hidle' hev hev' hseed
  obtain ⟨t, v, hrun, hrun', hsame, ht, hv⟩ := (sameGen_startGen hseed).exists_runs n (genAlone_startGen hs hidle hev)
    (genAlone_startGen hu hidle' hev')
  exact ⟨startGen s, t, startGen u, v, by rw [exec_gen, whenIdle_idle _ hidle], hrun,
    by rw [exec_gen, whenIdle_idle _ hidle'], hrun', hsame.fsm, ht.state.isBusy_congr hv.state hsame.fsm, hsame.sr,
    hsame.pb, hsame.walls⟩

end Sys2Proof.Machine

/-! # Seed 255 (spec/41_maze_carver.md R86)

SR = 0xFF is the generator's fixed point, where every draw is Left. The eight candidates of column 16 each start a walk that
carves its row from right to left; after them every candidate is visited. -/

namespace Sys2Proof.Machine

/-- The grid after `n` draws of Left: cells are carved row by row, each row from right to left. -/
def leftGrid (n x y : Nat) : WallCell :=
  if y = 8 ∨ x = 17 then 1 else if 17 * y + (16 - x) < n then 5 else 0

theorem leftGrid_zero (x y : Nat) : leftGrid 0 x y = initCell x y := rfl

theorem leftGrid_all {x y : Nat} (hy : y ≤ 8) : leftGrid 136 x y = if y = 8 ∨ x = 17 then 1 else 5 := by
  unfold leftGrid
  split_ifs
  · rfl
  · rfl
  · omega

/-- The cell that draw `n` comes to is fresh. -/
theorem leftGrid_next {x y : Nat} (hx : x ≤ 16) (hy : y ≤ 7) : leftGrid (17 * y + (16 - x)) x y = 0 := by
  rw [leftGrid, if_neg (by omega), if_neg (Nat.lt_irrefl _)]

/-- The draw marks it and carves its left edge. -/
theorem leftGrid_succ {x y x' y' : Nat} (hx : x ≤ 16) (hy : y ≤ 7) (hx' : x' ≤ 17) (hy' : y' ≤ 8) :
    leftGrid (17 * y + (16 - x)) x' y' ||| (if x' = x ∧ y' = y then 1 else 0) ||| (if x' = x ∧ y' = y then 4 else 0) =
      leftGrid (17 * y + (16 - x) + 1) x' y' := by
  by_cases hc : x' = x ∧ y' = y
  · obtain ⟨rfl, rfl⟩ := hc
    have hmarked : leftGrid (17 * y' + (16 - x') + 1) x' y' = 5 := by
      rw [leftGrid, if_neg (by omega), if_pos (Nat.lt_succ_self _)]
    rw [leftGrid_next hx hy, hmarked, if_pos ⟨rfl, rfl⟩, if_pos ⟨rfl, rfl⟩]
    rfl
  · have hsame : leftGrid (17 * y + (16 - x)) x' y' = leftGrid (17 * y + (16 - x) + 1) x' y' := by
      unfold leftGrid
      by_cases hborder : y' = 8 ∨ x' = 17
      · rw [if_pos hborder, if_pos hborder]
      · rw [if_neg hborder, if_neg hborder]
        exact if_congr (by omega) rfl rfl
    rw [if_neg hc, if_neg hc, hsame]
    exact BitVec.or_zero.trans BitVec.or_zero

/-- A GEN issued as `g` with SEED = 0xFF, after `n` draws. -/
structure LeftRun (g : State) (n : Nat) (s : State) : Prop where
  kept : KeptByGen g s
  sr : s.sr = 0xFF
  pb : s.pb = 1
  dir : 0 < n → s.dir = 3
  walls : ∀ x y, x ≤ 17 → y ≤ 8 → wallRead s x y = leftGrid n x y

/-- The same between two walks, before the test of the `k`-th candidate. -/
structure LeftScan (g : State) (n k : Nat) (s : State) : Prop extends LeftRun g n s where
  fsm : s.fsm = .genScan
  candidate : atCandidate k s

/-- The same in the walk along row `y`, before the draw at column `x`. -/
structure LeftWalk (g : State) (x y : Nat) (s : State) : Prop extends LeftRun g (17 * y + (16 - x)) s where
  fsm : s.fsm = .genWalk
  candidate : atCandidate y s
  cursor : CursorAt s x y

/-- A busy GEN with no RAST to follow and nothing pending. -/
structure IssuedAlone (g : State) : Prop where
  events : g.events = []
  busy : isBusy g = true
  chain : g.chain = false

variable {g s : State} {n k x y : Nat}

theorem LeftRun.events (h : LeftRun g n s) (hg : IssuedAlone g) : s.events = [] := h.kept.events.trans hg.events

theorem LeftRun.isBusy (h : LeftRun g n s) (hg : IssuedAlone g) : isBusy s = true :=
  (isBusy_congr h.kept.status).trans hg.busy

/-! The turns. -/

theorem LeftRun.advanceScan (h : LeftRun g n s) (hk : k < 136) (hcand : atCandidate k s) :
    LeftScan g n (k + 1) (advanceScan s) where
  kept := h.kept.trans (.advanceScan s)
  sr := by rw [advanceScan_frame, h.sr]
  pb := by rw [advanceScan_frame, h.pb]
  dir := by rw [advanceScan_frame]; exact h.dir
  walls := fun x y hx hy => by rw [(sameArrays_advanceScan s).wallRead, h.walls x y hx hy]
  fsm := advanceScan_fsm s
  candidate := atCandidate_advanceScan hk hcand

/-- A walk starts at column 16 of each row (R76). -/
theorem LeftScan.startWalk (h : LeftScan g (17 * y) y s) (hy : y ≤ 7) : LeftWalk g 16 y (startWalk s) := by
  obtain ⟨hcx, hcy, hleft⟩ := atCandidate_of_lt (by omega) h.candidate
  exact
    { h.toLeftRun with
      kept := h.kept.trans ⟨rfl, rfl, rfl, rfl, rfl, rfl, rfl, rfl, rfl, fun _ _ => rfl⟩
      fsm := rfl
      candidate := h.candidate
      cursor := ⟨by rw [startWalk_x]; omega, by rw [startWalk_y]; omega, le_rfl, hy⟩ }

/-- The scan of row `y` finds the cell at column 16 fresh. -/
theorem LeftScan.step_startWalk (h : LeftScan g (17 * y) y s) (hg : IssuedAlone g) (hy : y ≤ 7) :
    step s = .next (Machine.startWalk s) := by
  obtain ⟨hcx, hcy, hleft⟩ := atCandidate_of_lt (by omega) h.candidate
  have hpole : isPole s s.cx s.cy = false := by
    rw [isPole_eq_visited s (by omega) (by omega), visited, h.walls _ _ (by omega) (by omega),
      show s.cx = 16 by omega, show s.cy = y by omega, show leftGrid (17 * y) 16 y = 0 from leftGrid_next le_rfl hy]
    rfl
  rw [step_genScan (h.events hg) (h.isBusy hg) h.fsm, scanStep_of_open hleft hpole]

/-- The draw is Left, and the cell is fresh, so its left edge is carved. -/
theorem LeftWalk.afterCarve (h : LeftWalk g x y s) : LeftRun g (17 * y + (16 - x) + 1) (afterCarve s) where
  kept := h.kept.trans (.afterCarve h.cursor)
  sr := by rw [afterCarve_sr, h.sr]; rfl
  pb := by rw [afterCarve_pb, h.sr]; rfl
  dir := fun _ => (afterCarve_dir s).trans (drawn_dir_of_fixed h.sr h.pb)
  walls := fun x' y' hx' hy' => by
    rw [wallRead_afterCarve h.cursor hx', drawnDirection_of_fixed h.sr h.pb, h.walls x' y' hx' hy']
    exact leftGrid_succ h.cursor.x_le h.cursor.y_le hx' hy'

theorem LeftWalk.candidate_afterCarve (h : LeftWalk g x y s) : atCandidate y (Machine.afterCarve s) := by
  rw [atCandidate, afterCarve_cx, afterCarve_cy, afterCarve_scanDone]
  exact h.candidate

theorem LeftWalk.step (h : LeftWalk g x y s) (hg : IssuedAlone g) : step s = .next
    (if isPole (Machine.afterCarve s) (Machine.afterCarve s).x (Machine.afterCarve s).y
      then Machine.advanceScan (Machine.afterCarve s) else Machine.afterCarve s) := by
  have hopen : isBlocked s x y (drawnDirection s) = false := by
    rw [drawnDirection_of_fixed h.sr h.pb, isBlocked_eq s _ h.cursor.x_le h.cursor.y_le, edgeOwner,
      h.walls x y (Nat.le_succ_of_le h.cursor.x_le) (Nat.le_succ_of_le h.cursor.y_le),
      leftGrid_next h.cursor.x_le h.cursor.y_le]
    rfl
  rw [step_genWalk (h.events hg) (h.isBusy hg) h.fsm h.cursor, walkPass_of_open h.cursor hopen,
    ← isPole_afterCarve h.cursor]

/-- From column 0 the walk leaves the region, and the scan goes on. -/
theorem LeftWalk.step_last (h : LeftWalk g 0 y s) (hg : IssuedAlone g) :
    ∃ t, Machine.step s = .next t ∧ LeftScan g (17 * (y + 1)) (y + 1) t := by
  have hy := h.cursor.y_le
  have hpole : isPole (Machine.afterCarve s) (Machine.afterCarve s).x (Machine.afterCarve s).y = true := by
    refine isPole_of_not_inRegion _ ?_
    rw [← Bool.not_eq_true, inRegion_iff, afterCarve_x, h.cursor.x_eq, drawnDirection_of_fixed h.sr h.pb]
    simp [offsetOf]
  refine ⟨_, h.step hg, ?_⟩
  rw [if_pos hpole]
  exact h.afterCarve.advanceScan (by omega) h.candidate_afterCarve

/-- From any other column it goes on to the fresh cell on the left. -/
theorem LeftWalk.step_left (h : LeftWalk g (x + 1) y s) (hg : IssuedAlone g) :
    ∃ t, Machine.step s = .next t ∧ LeftWalk g x y t := by
  have hx : x + 1 ≤ 16 := h.cursor.x_le
  have hcur : CursorAt (Machine.afterCarve s) x y := by
    refine ⟨?_, ?_, by omega, h.cursor.y_le⟩
    · rw [afterCarve_x, h.cursor.x_eq, drawnDirection_of_fixed h.sr h.pb]
      simp [offsetOf]
    · rw [afterCarve_y, h.cursor.y_eq, drawnDirection_of_fixed h.sr h.pb]
      exact add_zero _
  have hcount : 17 * y + (16 - x) = 17 * y + (16 - (x + 1)) + 1 := by omega
  have hrun : LeftRun g (17 * y + (16 - x)) (Machine.afterCarve s) := hcount ▸ h.afterCarve
  have hpole : isPole (Machine.afterCarve s) (Machine.afterCarve s).x (Machine.afterCarve s).y = false := by
    rw [hcur.x_eq, hcur.y_eq, isPole_eq_visited _ hcur.x_le hcur.y_le, visited,
      hrun.walls x y (Nat.le_succ_of_le hcur.x_le) (Nat.le_succ_of_le hcur.y_le), leftGrid_next hcur.x_le hcur.y_le]
    rfl
  refine ⟨_, h.step hg, ?_⟩
  rw [if_neg (by rw [hpole]; exact Bool.false_ne_true)]
  exact { hrun with fsm := (afterCarve_fsm s).trans h.fsm, candidate := h.candidate_afterCarve, cursor := hcur }

/-! The runs. -/

/-- A walk carves the rest of its row in `x + 1` draws. -/
theorem LeftWalk.exists_run (h : LeftWalk g x y s) (hg : IssuedAlone g) :
    ∃ t, runsTo (x + 1) s t ∧ LeftScan g (17 * (y + 1)) (y + 1) t := by
  induction x generalizing s with
  | zero =>
    obtain ⟨t, hstep, ht⟩ := h.step_last hg
    exact ⟨t, runsTo_one hstep, ht⟩
  | succ x ih =>
    obtain ⟨u, hstep, hu⟩ := h.step_left hg
    obtain ⟨t, hrun, ht⟩ := ih hu
    exact ⟨t, runsTo_succ_iff.mpr ⟨u, hstep, hrun⟩, ht⟩

/-- The first `y` candidates each take 18 turns: the start of a walk and 17 draws. -/
theorem LeftScan.exists_run_rows (h : LeftScan g 0 0 g) (hg : IssuedAlone g) (hy : y ≤ 8) :
    ∃ t, runsTo (18 * y) g t ∧ LeftScan g (17 * y) y t := by
  induction y with
  | zero => exact ⟨g, runsTo_zero g, h⟩
  | succ y ih =>
    obtain ⟨u, hrun, hu⟩ := ih (by omega)
    obtain ⟨t, hrun', ht⟩ := (hu.startWalk (by omega)).exists_run hg
    have hrow : runsTo 18 u t := runsTo_succ_iff.mpr ⟨_, hu.step_startWalk hg (by omega), hrun'⟩
    exact ⟨t, runsTo_trans hrun hrow, ht⟩

/-- With all rows carved every candidate is a pole. -/
theorem LeftScan.step_skip (h : LeftScan g 136 k s) (hg : IssuedAlone g) (hk : k < 136) :
    step s = .next (Machine.advanceScan s) ∧ LeftScan g 136 (k + 1) (Machine.advanceScan s) := by
  obtain ⟨hcx, hcy, hleft⟩ := atCandidate_of_lt hk h.candidate
  have hpole : isPole s s.cx s.cy = true := by
    rw [isPole_eq_visited s (by omega) (by omega), visited, h.walls _ _ (by omega) (by omega), leftGrid_all (by omega),
      if_neg (by omega)]
    rfl
  rw [step_genScan (h.events hg) (h.isBusy hg) h.fsm, scanStep_of_pole hleft hpole]
  exact ⟨rfl, h.toLeftRun.advanceScan hk h.candidate⟩

/-- The candidates from `k` on are skipped, one a turn. -/
theorem LeftScan.exists_run_skips (h : LeftScan g 136 k s) (hg : IssuedAlone g) {m : Nat} (hm : k + m ≤ 136) :
    ∃ t, runsTo m s t ∧ LeftScan g 136 (k + m) t := by
  induction m with
  | zero => exact ⟨s, runsTo_zero s, h⟩
  | succ m ih =>
    obtain ⟨u, hrun, hu⟩ := ih (by omega)
    obtain ⟨hstep, ht⟩ := hu.step_skip hg (by omega)
    exact ⟨_, runsTo_trans hrun (runsTo_one hstep), ht⟩

/-- The whole scan: 8 rows of 18 turns and 128 candidates skipped. -/
theorem LeftScan.exists_run (h : LeftScan g 0 0 g) (hg : IssuedAlone g) :
    ∃ t, runsTo 272 g t ∧ LeftScan g 136 136 t := by
  obtain ⟨u, hrun, hu⟩ := h.exists_run_rows hg le_rfl
  obtain ⟨t, hrun', ht⟩ := hu.exists_run_skips hg (m := 128) le_rfl
  exact ⟨t, runsTo_trans hrun hrun', ht⟩

theorem issuedAlone_startGen {s : State} (hinv : StateInv s) (hidle : Machine.isBusy s = false) (hev : s.events = []) :
    IssuedAlone (startGen s) :=
  have halone := genAlone_startGen hinv hidle hev
  ⟨halone.events, halone.state.isBusy_of_inGen (.inl (startGen_fsm s)), halone.chain⟩

theorem leftScan_startGen {s : State} (hseed : s.seed = 0xFF) : LeftScan (startGen s) 0 0 (startGen s) where
  kept := .refl _
  sr := by rw [startGen_frame, hseed]
  pb := by rw [startGen_frame, hseed]; rfl
  dir := fun h => absurd h (Nat.lt_irrefl 0)
  walls := fun x y hx hy => by rw [wallRead_startGen s hx hy, leftGrid_zero]
  fsm := startGen_fsm s
  candidate := atCandidate_zero (by rw [startGen_frame]) (by rw [startGen_frame]) (by rw [startGen_frame])

/-- Settles O54: the scan's 272 turns leave the grid of 136 draws, and the last turn finishes GEN. -/
theorem seed255CarvesLeftOnly : Obligations.Seed255CarvesLeftOnly := by
  intro s hinv hidle hev hseed
  have hg := issuedAlone_startGen hinv hidle hev
  have hexec : exec .gen s = .next (startGen s) := by rw [exec_gen, whenIdle_idle _ hidle]
  obtain ⟨t, hrun, ht⟩ := (leftScan_startGen hseed).exists_run hg
  have hlast : step t = .next (clearBusy { t with fsm := .idle }) := by
    rw [step_genScan (ht.events hg) (ht.isBusy hg) ht.fsm, scanStep_of_done (atCandidate_last ht.candidate),
      finishGen_of_unchained (ht.kept.chain.trans hg.chain)]
  refine ⟨startGen s, _, hexec, runsTo_trans hrun (runsTo_one hlast), isBusy_clearBusy _, ?_, ht.sr, ht.pb,
    ht.dir (by decide), fun x y hx hy => (ht.walls x y hx hy).trans (leftGrid_all hy)⟩
  calc hasError .cap (clearBusy { t with fsm := .idle })
    _ = hasError .cap t := hasError_clearBusy .cap { t with fsm := .idle }
    _ = hasError .cap (startGen s) := hasError_congr .cap ht.kept.status
    _ = hasError .cap s := hasError_cap_exec hexec

end Sys2Proof.Machine

/-! # The tile expander (spec/42_layout_rasterizer.md)

The index of a block (R91 to R93), the four pixels of a pattern (R89), one turn of RAST (R88, R90), and the picture that its
190 blocks leave. -/

namespace Sys2Proof.Machine

/-! The issue (R88). -/

/-- Settles O8: an idle block takes the issue, which sets BUSY and the block counters. -/
theorem rastIssue : Obligations.RastIssue :=
  ⟨rfl, fun s hidle => by rw [exec_rast, whenIdle_idle _ hidle]; rfl⟩

/-! The index of a block. -/

theorem blockIndex_corner (s : State) : blockIndex s 0 0 = 0 := rfl

theorem blockIndex_top (s : State) {bx : Nat} (h : 1 ≤ bx) : blockIndex s bx 0 = 2 := by
  rw [blockIndex, if_pos rfl, if_neg (Nat.one_le_iff_ne_zero.mp h)]

theorem blockIndex_left (s : State) {b : Nat} (h : 1 ≤ b) : blockIndex s 0 b = 1 := by
  rw [blockIndex, if_neg (Nat.one_le_iff_ne_zero.mp h), if_pos rfl]

theorem blockIndex_cell (s : State) (x y : Nat) : blockIndex s (x + 1) (y + 1) = cellIndex x y (wallRead s x y) := by
  rw [blockIndex, if_neg (Nat.succ_ne_zero y), if_neg (Nat.succ_ne_zero x), Nat.add_sub_cancel, Nat.add_sub_cancel]

/-- Bit 0 is top-open, forced in the right column (R92, R93). -/
theorem cellIndex_bit0 (x y : Nat) (v : WallCell) : (cellIndex x y v).getLsbD 0 = (v.getLsbD 1 || decide (x = 17)) := by
  unfold cellIndex
  split_ifs <;> simp [*]

/-- Bit 1 is left-open, forced in the bottom row (R92, R93). -/
theorem cellIndex_bit1 (x y : Nat) (v : WallCell) : (cellIndex x y v).getLsbD 1 = (v.getLsbD 2 || decide (y = 8)) := by
  unfold cellIndex
  split_ifs <;> simp [*]

theorem patternOf_of_four_le {i : Nat} (h : 4 ≤ i) : patternOf i = ⟨0, 0, 0, 0⟩ := by
  match i, h with
  | _ + 4, _ => rfl

/-- Settles O39: a border block's index is fixed, and any other block's is its cell's. -/
theorem blockIndexAndPatterns : Obligations.BlockIndexAndPatterns :=
  ⟨⟨rfl, rfl, rfl, rfl, fun _ => patternOf_of_four_le⟩,
    fun s => ⟨blockIndex_corner s, fun _ => blockIndex_top s, fun _ => blockIndex_left s⟩,
    fun s x y _ _ => by rw [blockIndex_cell]; exact ⟨cellIndex_bit0 x y _, cellIndex_bit1 x y _⟩⟩

/-- Two states alike in bits 2:1 of the 162 wall cells. -/
def sameEdgeBits (s u : State) : Prop :=
  ∀ x y, x ≤ 17 → y ≤ 8 → (wallRead u x y).extractLsb' 1 2 = (wallRead s x y).extractLsb' 1 2

/-- The index is read from bits 2:1 of the block's cell alone (R95). -/
theorem sameEdgeBits.blockIndex {s u : State} (h : sameEdgeBits s u) {bx b : Nat} (hbx : bx ≤ 18) (hb : b ≤ 9) :
    blockIndex u bx b = blockIndex s bx b := by
  match bx, b with
  | 0, 0 => rfl
  | bx + 1, 0 => rw [blockIndex_top u (by omega), blockIndex_top s (by omega)]
  | 0, b + 1 => rw [blockIndex_left u (by omega), blockIndex_left s (by omega)]
  | x + 1, y + 1 => rw [blockIndex_cell, blockIndex_cell, cellIndex, cellIndex, h x y (by omega) (by omega)]

theorem sameEdgeBits.rasterPixel {s u : State} (h : sameEdgeBits s u) {r c : Nat} (hr : r ≤ 19) (hc : c ≤ 37) :
    rasterPixel u r c = rasterPixel s r c := by
  rw [Machine.rasterPixel, Machine.rasterPixel, h.blockIndex (by omega) (by omega)]

/-! The block put (R90). -/

/-- The four pixels of the block. -/
theorem pixRead_putBlock_same (b : Nat) (p : BlockPattern) (s : State) {bx i j : Nat} (hbx : bx ≤ 18) (hi : i ≤ 1)
    (hj : j ≤ 1) : pixRead (putBlock bx b p s) (2 * b + i) (2 * bx + j) = p.pixel i j := by
  unfold putBlock
  interval_cases i <;> interval_cases j <;>
    simp (disch := omega) [pixRead_pixWrite_other, BlockPattern.pixel]

/-- Every other pixel stays. -/
theorem pixRead_putBlock_other (b : Nat) (p : BlockPattern) (s : State) {bx r c : Nat} (hbx : bx ≤ 18) (hc : c ≤ 37)
    (h : ¬ (r / 2 = b ∧ c / 2 = bx)) : pixRead (putBlock bx b p s) r c = pixRead s r c := by
  rw [pixRead, readByte_putBlock_other, pixRead]
  intro r' c' hr' hc' haddr
  obtain ⟨rfl, rfl⟩ := pixAddr_inj hc (by omega) haddr
  exact h ⟨hr', hc'⟩

/-! One turn of RAST. -/

theorem sameArrays_blockDrawn (s : State) : sameArrays
    (putBlock s.blockX s.blockY (patternOf (blockIndex s s.blockX s.blockY).toNat) s) (blockDrawn s) := ⟨rfl, rfl⟩

theorem pixRead_blockDrawn (s : State) {r c : Nat} (hcol : s.blockX ≤ 18) (hc : c ≤ 37) :
    pixRead (blockDrawn s) r c = if r / 2 = s.blockY ∧ c / 2 = s.blockX then rasterPixel s r c else pixRead s r c := by
  obtain ⟨hmem, hepoch⟩ := sameArrays_blockDrawn s
  rw [pixRead_congr hmem hepoch]
  split_ifs with hblock
  · have hput := pixRead_putBlock_same s.blockY (patternOf (blockIndex s s.blockX s.blockY).toNat) s hcol
      (i := r % 2) (j := c % 2) (by omega) (by omega)
    rw [← hblock.1, ← hblock.2, Nat.div_add_mod, Nat.div_add_mod] at hput
    rw [← hblock.1, ← hblock.2, hput, rasterPixel]
  · exact pixRead_putBlock_other _ _ _ hcol hc hblock

/-- A byte that is none of the block's four pixels stays. -/
theorem readByte_blockDrawn_other (s : State) {a : Nat}
    (h : ∀ r c, r / 2 = s.blockY → c / 2 = s.blockX → a ≠ pixAddr r c) : readByte (blockDrawn s) a = readByte s a := by
  rw [(sameArrays_blockDrawn s).readByte, readByte_putBlock_other _ _ _ _ h]

/-- A turn in RAST_RUN with nothing pending, before block (`blockX`, `blockY`). -/
theorem step_rastRun_block {s : State} (hev : s.events = []) (hbusy : isBusy s = true) (hrast : s.fsm = .rastRun)
    (hcol : s.blockX ≤ 18) (hrow : s.blockY ≤ 9) : step s = .next (blockDrawn s) := by
  rw [step_nil hev, engineStep, hbusy, hrast]
  exact rasterStep_next.mpr (.inr ⟨by omega, by omega, rfl⟩)

/-- The turn that follows the last block row. -/
theorem step_rastRun_end {s : State} (hev : s.events = []) (hbusy : isBusy s = true) (hrast : s.fsm = .rastRun)
    (hrow : s.blockY = 10) : step s = .next (finishRaster s) := by
  rw [step_nil hev, engineStep, hbusy, hrast]
  exact rasterStep_next.mpr (.inl ⟨hrow.ge, rfl⟩)

/-- Settles O40: a turn puts one block, and the turn after the last block row finishes RAST. -/
theorem rasterTurn : Obligations.RasterTurn := by
  refine fun s hev hbusy hrast => ⟨fun hcol hrow => ?_, fun hrow => step_rastRun_end hev hbusy hrast hrow⟩
  refine ⟨blockDrawn s, step_rastRun_block hev hbusy hrast hcol hrow, blockDrawn_frame s, fun i j hi hj => ?_,
    fun b hb => readByte_blockDrawn_other s fun r c hr hc => ?_⟩
  · obtain ⟨hmem, hepoch⟩ := sameArrays_blockDrawn s
    rw [pixRead_congr hmem hepoch, pixRead_putBlock_same _ _ _ hcol hi hj]
  · rw [← Nat.div_add_mod r 2, ← Nat.div_add_mod c 2, hr, hc]
    exact hb _ _ (by omega) (by omega)

/-! The run of RAST. -/

/-- A RAST issued as `g`, after `n` blocks in the order of R88's loops. -/
structure Drawing (g : State) (n : Nat) (s : State) : Prop where
  frame : s = { g with mem := s.mem, blockX := n % 19, blockY := n / 19 }
  drawn : ∀ r c, c ≤ 37 → 19 * (r / 2) + c / 2 < n → pixRead s r c = rasterPixel g r c
  bytes : ∀ b, b < 0x400 ∨ 0x6F7 < b → readByte s b = readByte g b

/-- A busy RAST before block (0, 0), with nothing pending. -/
structure IssuedRast (g : State) : Prop where
  events : g.events = []
  busy : isBusy g = true
  fsm : g.fsm = .rastRun
  corner : g = { g with blockX := 0, blockY := 0 }

theorem issuedRast_startRaster {s : State} (hev : s.events = []) : IssuedRast (startRaster (setBusy s)) :=
  ⟨hev, isBusy_setBusy s, rfl, rfl⟩

namespace Drawing

variable {g s : State} {n : Nat}

theorem zero (hg : IssuedRast g) : Drawing g 0 g where
  frame := hg.corner
  drawn := fun _ _ _ hlt => absurd hlt (Nat.not_lt_zero _)
  bytes := fun _ _ => rfl

theorem wallRead (h : Drawing g n s) {x y : Nat} (hx : x ≤ 17) (hy : y ≤ 8) : wallRead s x y = wallRead g x y := by
  rw [Machine.wallRead, h.bytes _ (.inl (by unfold wallAddr; omega)), Machine.wallRead]

/-- Every block is drawn from the walls as they were at the issue. -/
theorem sameEdgeBits (h : Drawing g n s) : sameEdgeBits g s := fun _ _ hx hy => by rw [h.wallRead hx hy]

theorem block (h : Drawing g n s) : s.blockX = n % 19 ∧ s.blockY = n / 19 := by
  rw [h.frame]
  exact ⟨rfl, rfl⟩

theorem blockDrawn (h : Drawing g n s) (hn : n < 190) : Drawing g (n + 1) (blockDrawn s) where
  frame := by
    obtain ⟨hx, hy⟩ := h.block
    have hx' : (Machine.blockDrawn s).blockX = (n + 1) % 19 := by rw [blockDrawn_blockX]; split_ifs <;> omega
    have hy' : (Machine.blockDrawn s).blockY = (n + 1) / 19 := by rw [blockDrawn_blockY]; split_ifs <;> omega
    rw [blockDrawn_frame, hx', hy']
    generalize (Machine.blockDrawn s).mem = m
    rw [h.frame]
  drawn := fun r c hc hlt => by
    obtain ⟨hx, hy⟩ := h.block
    rw [pixRead_blockDrawn s (by omega) hc]
    split_ifs with hblock
    · exact h.sameEdgeBits.rasterPixel (by omega) hc
    · exact h.drawn r c hc (by omega)
  bytes := fun b hb => by
    obtain ⟨hx, hy⟩ := h.block
    rw [readByte_blockDrawn_other s fun r c hr hc => by unfold pixAddr; omega, h.bytes b hb]

theorem running (h : Drawing g n s) (hg : IssuedRast g) : s.events = [] ∧ isBusy s = true ∧ s.fsm = .rastRun := by
  rw [h.frame]
  exact ⟨hg.events, hg.busy, hg.fsm⟩

theorem step (h : Drawing g n s) (hg : IssuedRast g) (hn : n < 190) : step s = .next (Machine.blockDrawn s) := by
  obtain ⟨hev, hbusy, hrast⟩ := h.running hg
  obtain ⟨hx, hy⟩ := h.block
  exact step_rastRun_block hev hbusy hrast (by omega) (by omega)

theorem step_end (h : Drawing g 190 s) (hg : IssuedRast g) : Machine.step s = .next (finishRaster s) := by
  obtain ⟨hev, hbusy, hrast⟩ := h.running hg
  exact step_rastRun_end hev hbusy hrast h.block.2

theorem exists_run (hg : IssuedRast g) (hn : n ≤ 190) : ∃ s, runsTo n g s ∧ Drawing g n s := by
  induction n with
  | zero => exact ⟨g, runsTo_zero g, zero hg⟩
  | succ n ih =>
    obtain ⟨u, hrun, hu⟩ := ih (Nat.le_of_succ_le hn)
    exact ⟨_, runsTo_trans hrun (runsTo_one (hu.step hg hn)), hu.blockDrawn hn⟩

end Drawing

/-- Settles O41: 190 turns draw the blocks, and the last one finishes RAST. -/
theorem rastDrawsThePicture : Obligations.RastDrawsThePicture := by
  intro s hidle hev
  have hg := issuedRast_startRaster hev
  obtain ⟨u, hrun, hu⟩ := Drawing.exists_run hg (n := 190) le_rfl
  refine ⟨_, finishRaster u, by rw [exec_rast, whenIdle_idle _ hidle], runsTo_trans hrun (runsTo_one (hu.step_end hg)), ?_,
    fun i j hi hj => hu.drawn i j hj (by omega), hu.bytes⟩
  have hframe := hu.frame
  rw [finishRaster_mem]
  generalize u.mem = m at hframe ⊢
  rw [hframe]
  rfl

/-- RAST comes to its end with the picture drawn. -/
theorem exists_rast_run {s : State} (hidle : isBusy s = false) (hev : s.events = []) :
    ∃ r t, exec .rast s = .next r ∧ runsTo 191 r t ∧ isBusy t = false ∧
      ∀ i j, i ≤ 19 → j ≤ 37 → pixRead t i j = rasterPixel s i j := by
  obtain ⟨r, t, hexec, hrun, hframe, hpix, -⟩ := rastDrawsThePicture s hidle hev
  refine ⟨r, t, hexec, hrun, ?_, hpix⟩
  rw [hframe]
  exact isBusy_clearBusy (setBusy s)

/-- Settles O43: the picture is a function of the edge bits. -/
theorem pixIsAFunctionOfTheEdgeBits : Obligations.PixIsAFunctionOfTheEdgeBits := by
  intro s u hidle hev hidle' hev' (hsame : sameEdgeBits s u)
  obtain ⟨r, t, hexec, hrun, hend, hpix⟩ := exists_rast_run hidle hev
  obtain ⟨r', t', hexec', hrun', hend', hpix'⟩ := exists_rast_run hidle' hev'
  refine ⟨r, t, r', t', hexec, hrun, hend, hexec', hrun', hend', fun i j hi hj => ?_⟩
  rw [hpix' i j hi hj, hpix i j hi hj, hsame.rasterPixel hi hj]

/-! The frame (R96). -/

/-- The blocks at the top have bit 0 of their index clear. -/
theorem blockIndex_top_bit0 (s : State) (bx : Nat) : (blockIndex s bx 0).getLsbD 0 = false := by
  cases bx with
  | zero => rw [blockIndex_corner]; rfl
  | succ x => rw [blockIndex_top s (Nat.le_add_left 1 x)]; rfl

/-- The blocks at the left have bit 1 of their index clear. -/
theorem blockIndex_left_bit1 (s : State) (b : Nat) : (blockIndex s 0 b).getLsbD 1 = false := by
  cases b with
  | zero => rw [blockIndex_corner]; rfl
  | succ y => rw [blockIndex_left s (Nat.le_add_left 1 y)]; rfl

/-- What the four patterns have in common (R89): the top left pixel is empty and the bottom right one filled, bit 0 of the
index fills the top right one and bit 1 the bottom left one. -/
theorem pixel_patternOf_eq_one_iff (k : BitVec 2) {i j : Nat} (hi : i < 2) (hj : j < 2) :
    (patternOf k.toNat).pixel i j = 1 ↔
      (j = 1 ∧ (i = 1 ∨ k.getLsbD 0 = true)) ∨ (i = 1 ∧ k.getLsbD 1 = true) := by
  have table : ∀ k : BitVec 2, ∀ i < 2, ∀ j < 2, (patternOf k.toNat).pixel i j = 1 ↔
      (j = 1 ∧ (i = 1 ∨ k.getLsbD 0 = true)) ∨ (i = 1 ∧ k.getLsbD 1 = true) := by decide
  exact table k i hi j hj

theorem rasterPixel_eq_one_iff (s : State) (r c : Nat) : rasterPixel s r c = 1 ↔
    (c % 2 = 1 ∧ (r % 2 = 1 ∨ (blockIndex s (c / 2) (r / 2)).getLsbD 0 = true)) ∨
      (r % 2 = 1 ∧ (blockIndex s (c / 2) (r / 2)).getLsbD 1 = true) :=
  pixel_patternOf_eq_one_iff _ (Nat.mod_lt r two_pos) (Nat.mod_lt c two_pos)

/-- The bottom rows of the blocks at the top and at the bottom: their indices have bit 1 set. -/
theorem rasterPixel_row (s : State) {r c : Nat} (hr : r = 1 ∨ r = 19) (hc : 1 ≤ c) : rasterPixel s r c = 1 := by
  rw [rasterPixel_eq_one_iff]
  by_cases hodd : c % 2 = 1
  · exact .inl ⟨hodd, .inl (by omega)⟩
  · obtain ⟨x, hx⟩ : ∃ x, c / 2 = x + 1 := ⟨c / 2 - 1, by omega⟩
    refine .inr ⟨by omega, ?_⟩
    rw [hx]
    rcases hr with rfl | rfl
    · rw [blockIndex_top s (Nat.le_add_left 1 x)]
      rfl
    · rw [blockIndex_cell, cellIndex_bit1, decide_eq_true rfl, Bool.or_true]

/-- The right columns of the blocks at the left and at the right: their indices have bit 0 set. -/
theorem rasterPixel_column (s : State) {r c : Nat} (hc : c = 1 ∨ c = 37) (hr : 1 ≤ r) : rasterPixel s r c = 1 := by
  rw [rasterPixel_eq_one_iff]
  refine .inl ⟨by omega, ?_⟩
  by_cases hodd : r % 2 = 1
  · exact .inl hodd
  · obtain ⟨y, hy⟩ : ∃ y, r / 2 = y + 1 := ⟨r / 2 - 1, by omega⟩
    refine .inr ?_
    rw [hy]
    rcases hc with rfl | rfl
    · rw [blockIndex_left s (Nat.le_add_left 1 y)]
      rfl
    · rw [blockIndex_cell, cellIndex_bit0, decide_eq_true rfl, Bool.or_true]

theorem pixel_eq_zero_of_ne_one {p : Pixel} (h : p ≠ 1) : p = 0 := (BitVec.eq_zero_or_eq_one p).resolve_right h

theorem rasterPixel_row_zero (s : State) (c : Nat) : rasterPixel s 0 c = 0 := by
  refine pixel_eq_zero_of_ne_one fun h => ?_
  rcases (rasterPixel_eq_one_iff s 0 c).mp h with ⟨-, hrow | hbit⟩ | ⟨hrow, -⟩
  · exact absurd hrow (by decide)
  · exact Bool.false_ne_true ((blockIndex_top_bit0 s _).symm.trans hbit)
  · exact absurd hrow (by decide)

theorem rasterPixel_column_zero (s : State) (r : Nat) : rasterPixel s r 0 = 0 := by
  refine pixel_eq_zero_of_ne_one fun h => ?_
  rcases (rasterPixel_eq_one_iff s r 0).mp h with ⟨hcol, -⟩ | ⟨-, hbit⟩
  · exact absurd hcol (by decide)
  · exact Bool.false_ne_true ((blockIndex_left_bit1 s _).symm.trans hbit)

/-- Settles O42: the frame is in the picture, whatever the walls hold. -/
theorem rastDrawsTheFrame : Obligations.RastDrawsTheFrame := by
  intro s hidle hev
  obtain ⟨r, t, hexec, hrun, hend, hpix⟩ := exists_rast_run hidle hev
  refine ⟨r, t, hexec, hrun, hend, fun c hlo hhi => ⟨?_, ?_⟩, fun i hlo hhi => ⟨?_, ?_⟩, fun c hhi => ?_, fun i hhi => ?_⟩ <;>
    rw [hpix _ _ (by omega) (by omega)]
  · exact rasterPixel_row s (.inl rfl) hlo
  · exact rasterPixel_row s (.inr rfl) hlo
  · exact rasterPixel_column s (.inl rfl) hlo
  · exact rasterPixel_column s (.inr rfl) hlo
  · exact rasterPixel_row_zero s c
  · exact rasterPixel_column_zero s i

end Sys2Proof.Machine

/-! # The control commands (spec/43_command_control.md)

NOP (R98), the reserved bytes (R100), and GENRAST (R99). A turn of the engine reads CHAIN only where it ends a GEN, so GENRAST
takes the turns of GEN, and then those of RAST, with CHAIN set. -/

namespace Sys2Proof.Machine

/-- Settles O4. -/
theorem nopHasNoEffect : Obligations.NopHasNoEffect :=
  ⟨rfl, fun s => ⟨fun hidle => (exec_nop s).trans (whenIdle_idle _ hidle), fun hbusy => exec_busy .nop hbusy⟩⟩

/-- Settles O10: no byte of 6 or more decodes, and BUSY chooses the error. -/
theorem reservedBytesRaiseErrIllegal : Obligations.ReservedBytesRaiseErrIllegal := by
  intro s rest d hev hd
  obtain ⟨e, hdec⟩ := exists_decodeCommand_eq_error hd
  have hstep := (step_write_cmd hev).trans (writeCommand_of_error _ hdec)
  rw [isBusy_setEvents] at hstep
  refine ⟨fun hidle => ?_, fun hbusy => ?_⟩
  · rw [hidle] at hstep
    exact hstep
  · rw [hbusy] at hstep
    exact hstep

/-! The state with another CHAIN. -/

/-- CHAIN <- c. -/
def setChain (c : Bool) (s : State) : State := { s with chain := c }

theorem setChain_of_chain_eq {c : Bool} {s : State} (h : s.chain = c) : setChain c s = s := by
  subst h
  rfl

theorem isPole_setChain (c : Bool) (s : State) (x y : Int) : isPole (setChain c s) x y = isPole s x y :=
  isPole_congr rfl rfl x y

theorem isBlocked_setChain (c : Bool) (s : State) (x y : Nat) (d : Direction) :
    isBlocked (setChain c s) x y d = isBlocked s x y d := isBlocked_congr rfl rfl x y d

theorem initWall_setChain (c : Bool) (s : State) : initWall (setChain c s) = setChain c (initWall s) := by
  unfold initWall
  generalize gridCells = l
  induction l with
  | nil => rfl
  | cons p l ih =>
    rw [List.foldr_cons, ih]
    rfl

theorem startGen_setChain (c : Bool) (s : State) : startGen (setChain c s) = setChain c (startGen s) := by
  have hload : loadGenerator (setChain c s).seed (setBusy (setChain c s)) =
      setChain c (loadGenerator s.seed (setBusy s)) := rfl
  rw [startGen, hload, initWall_setChain]
  rfl

/-! A turn that ends no command. -/

theorem advanceScan_setChain (c : Bool) (s : State) : advanceScan (setChain c s) = setChain c (advanceScan s) := by
  rw [advanceScan_eq, advanceScan_eq]
  rfl

theorem scanStep_setChain (c : Bool) {s : State} (hchain : s.chain = false) (hrun : (scanStep s).fsm ≠ .idle) :
    scanStep (setChain c s) = setChain c (scanStep s) := by
  rcases scanStep_cases s with ⟨hdone, e⟩ | ⟨hleft, hpole, e⟩ | ⟨hleft, hopen, e⟩ <;> rw [e] at hrun ⊢
  · rw [finishGen_of_unchained hchain] at hrun
    exact absurd rfl hrun
  · rw [← isPole_setChain c] at hpole
    rw [scanStep_of_pole (s := setChain c s) hleft hpole, advanceScan_setChain]
  · rw [← isPole_setChain c] at hopen
    exact scanStep_of_open (s := setChain c s) hleft hopen

theorem retryDraw_setChain (c : Bool) {s : State} (hrun : (retryDraw s).fsm ≠ .idle) :
    retryDraw (setChain c s) = setChain c (retryDraw s) := by
  rcases retryDraw_cases s with ⟨-, e⟩ | ⟨hcap, e⟩ <;> rw [e] at hrun ⊢
  · exact absurd rfl hrun
  · exact ((retryDraw_cases (setChain c s)).resolve_left fun h => hcap h.1).2

theorem carved_setChain (d : Direction) (c : Bool) (s : State) : carved d (setChain c s) = setChain c (carved d s) := by
  cases d <;> rfl

theorem carveDraw_setChain (d : Direction) (c : Bool) (s : State) :
    carveDraw d (setChain c s) = setChain c (carveDraw d s) := by
  unfold carveDraw
  rw [carved_setChain, isPole_setChain, advanceScan_setChain, apply_ite (setChain c)]
  rfl

theorem walkPass_setChain (c : Bool) {s : State} (hrun : (walkPass s).fsm ≠ .idle) :
    walkPass (setChain c s) = setChain c (walkPass s) := by
  have hdrawn : drawn (setChain c s) = setChain c (drawn s) := rfl
  have hdir : drawnDirection (setChain c s) = drawnDirection s := rfl
  rw [walkPass, hdrawn, hdir, isBlocked_setChain]
  rcases walkPass_cases s with ⟨hblocked, e⟩ | ⟨hopen, e⟩ <;> rw [e] at hrun ⊢
  · exact (if_pos hblocked).trans (retryDraw_setChain c hrun)
  · exact (if_neg (Bool.eq_false_iff.mp hopen)).trans (carveDraw_setChain _ c _)

theorem rasterStep_setChain (c : Bool) {s t : State} (h : rasterStep s = .next t) (hrun : t.fsm ≠ .idle) :
    rasterStep (setChain c s) = .next (setChain c t) := by
  rw [rasterStep_next] at h ⊢
  rcases h with ⟨-, rfl⟩ | ⟨hrow, hcol, rfl⟩
  · exact absurd rfl hrun
  · have hindex := blockIndex_congr (s := s) (t := setChain c s) rfl rfl s.blockX s.blockY
    refine .inr ⟨hrow, hcol, ?_⟩
    rw [blockDrawn, blockDrawn, ← hindex]
    rfl

/-- A turn with CHAIN at 0 that leaves the engine running is the same turn whatever CHAIN is. -/
theorem engineStep_setChain (c : Bool) {s t : State} (h : engineStep s = .next t) (hchain : s.chain = false)
    (hrun : t.fsm ≠ .idle) : engineStep (setChain c s) = .next (setChain c t) := by
  have hbusy : isBusy (setChain c s) = isBusy s := rfl
  have hfsm : (setChain c s).fsm = s.fsm := rfl
  unfold engineStep at h ⊢
  rw [hbusy, hfsm]
  split_ifs at h ⊢
  · cases hphase : s.fsm <;> simp only [hphase] at h ⊢
    case idle => cases h; rfl
    case genScan => cases h; rw [scanStep_setChain c hchain hrun]
    case genWalk =>
      obtain ⟨hgrid, rfl⟩ := walkStep_next.mp h
      exact walkStep_next.mpr ⟨hgrid, (walkPass_setChain c hrun).symm⟩
    case rastRun => exact rasterStep_setChain c h hrun
  · cases h
    rfl

/-- Such a turn leaves CHAIN at 0. -/
theorem engineStep_unchained {s t : State} (h : engineStep s = .next t) (hchain : s.chain = false) (hrun : t.fsm ≠ .idle) :
    t.chain = false := by
  have hturn := engineStep_setChain false h hchain hrun
  rw [setChain_of_chain_eq hchain, h] at hturn
  rw [Host.Outcome.next.inj hturn]
  rfl

/-! A run that ends no command. -/

/-- An idle engine does nothing in any number of turns. -/
theorem eq_of_runsTo_of_idle {n : Nat} {s t : State} (hev : s.events = []) (hidle : s.fsm = .idle) (h : runsTo n s t) :
    t = s := by
  induction n with
  | zero => exact (Host.Outcome.next.inj h).symm
  | succ n ih =>
    obtain ⟨u, hstep, hrun⟩ := runsTo_succ_iff.mp h
    have hstill : step s = .next s := by
      rw [step_nil hev, engineStep, hidle]
      exact ite_self _
    obtain rfl : s = u := Host.Outcome.next.inj (hstill.symm.trans hstep)
    exact ih hrun

/-- A run with CHAIN at 0 that leaves the engine running is the same run whatever CHAIN is. -/
theorem runsTo_setChain (c : Bool) {n : Nat} {s t : State} (h : runsTo n s t) (hev : s.events = []) (hchain : s.chain = false)
    (hrun : t.fsm ≠ .idle) : runsTo n (setChain c s) (setChain c t) := by
  induction n generalizing s with
  | zero =>
    obtain rfl : s = t := Host.Outcome.next.inj h
    exact runsTo_zero _
  | succ n ih =>
    obtain ⟨u, hstep, hrest⟩ := runsTo_succ_iff.mp h
    have hturn := (step_nil hev).symm.trans hstep
    have hev' := (engineStep_events hturn).trans hev
    have hrun' : u.fsm ≠ .idle := fun hidle => hrun (by rw [eq_of_runsTo_of_idle hev' hidle hrest, hidle])
    exact runsTo_succ_iff.mpr ⟨setChain c u, (step_nil (s := setChain c s) hev).trans
      (engineStep_setChain c hturn hchain hrun'), ih hrest hev' (engineStep_unchained hturn hchain hrun')⟩

/-! GENRAST (R99). -/

/-- The issue of RAST after GEN has finished leaves what the last turn of GEN leaves with CHAIN set. -/
theorem startRaster_after_finish {s : State} (hbusy : isBusy s = true) :
    startRaster (setBusy (clearBusy { s with fsm := .idle })) = startRaster s := by
  have table : ∀ v : Byte, v.getLsbD 0 = true → (v &&& 0xFE) ||| 0x01 = v := by decide
  rw [setBusy, clearBusy, table s.status hbusy]
  rfl

/-- RAST issued as `g`, and the RAST that follows GEN with CHAIN set, end after 191 turns in one state. -/
theorem IssuedRast.exists_end {g : State} (hg : IssuedRast g) (hchain : g.chain = false) :
    ∃ t, runsTo 191 g t ∧ runsTo 191 (setChain true g) t ∧ isBusy t = false := by
  obtain ⟨u, hrun, hu⟩ := Drawing.exists_run hg (n := 190) le_rfl
  obtain ⟨hev, hbusy, hrast⟩ := hu.running hg
  have hrun' := runsTo_setChain true hrun hg.events hchain (by simp [hrast])
  have hlast : step (setChain true u) = .next (finishRaster u) :=
    step_rastRun_end (s := setChain true u) hev hbusy hrast hu.block.2
  exact ⟨finishRaster u, runsTo_trans hrun (runsTo_one (hu.step_end hg)), runsTo_trans hrun' (runsTo_one hlast),
    isBusy_clearBusy _⟩

/-- Settles O53: GENRAST comes to the end of its scan as GEN does; there GEN finishes, and RAST issued then stands where GENRAST
stands after its last turn of GEN, CHAIN aside. -/
theorem genrastEqualsGenThenRast : Obligations.GenrastEqualsGenThenRast := by
  intro s hinv hidle hev
  have hissued := genAlone_startGen hinv hidle hev
  obtain ⟨n, u, hrun, hu, hscan, hdone, hkept⟩ := (runningGen_startGen hinv s.chain).exists_scanEnd hissued.events
  have huev : u.events = [] := hkept.events.trans hissued.events
  have huchain : u.chain = false := hkept.chain.trans hissued.chain
  have hubusy := hu.state.isBusy_of_inGen hu.running
  have hgen : step u = .next (clearBusy { u with fsm := .idle }) := by
    rw [step_genScan huev hubusy hscan, scanStep_of_done hdone, finishGen_of_unchained huchain]
  have hgenrast : step (setChain true u) = .next (setChain true (startRaster u)) := by
    rw [step_genScan (s := setChain true u) huev hubusy hscan, scanStep_of_done (s := setChain true u) hdone,
      finishGen_of_chained rfl]
    rfl
  obtain ⟨t, hplain, hchained, hend⟩ := IssuedRast.exists_end (g := startRaster u) ⟨huev, hubusy, rfl, rfl⟩ huchain
  have hrun' := runsTo_setChain true hrun hissued.events hissued.chain (by simp [hscan])
  rw [← startGen_setChain] at hrun'
  refine ⟨startGen s, n + 1, clearBusy { u with fsm := .idle }, startRaster u, t, startGen (setChain true s), ?_,
    runsTo_trans hrun (runsTo_one hgen), isBusy_clearBusy _, ?_, hplain, hend, ?_,
    runsTo_trans (runsTo_trans hrun' (runsTo_one hgenrast)) hchained⟩
  · rw [exec_gen, whenIdle_idle _ hidle]
  · rw [exec_rast, whenIdle_idle _ (isBusy_clearBusy _), startRaster_after_finish hubusy]
  · rw [exec_genrast, whenIdle_idle _ hidle]
    rfl

end Sys2Proof.Machine

/-! # The block never stops (spec/60_exceptions.md R101)

An event is answered in every state; a turn of the engine is, where the invariant keeps the cursor and the block inside their
grids (spec/00_scope.md R13). -/

namespace Sys2Proof.Machine

theorem exists_whenIdle_next (s : State) (f : State → State) : ∃ t, whenIdle s f = .next t := by
  cases hbusy : isBusy s with
  | true => exact ⟨_, whenIdle_busy f hbusy⟩
  | false => exact ⟨_, whenIdle_idle f hbusy⟩

/-- The effect of a command that is not rejected (spec/20_memory.md R38). -/
def commandEffect : Instr → State → State
  | .nop, s => s
  | .gen, s => startGen s
  | .rast, s => startRaster (setBusy s)
  | .genrast, s => startGen { s with chain := true }
  | .lfsrLoad, s => loadGenerator s.seed s
  | .lfsrNext, s => nextDirection s

/-- A command is its effect behind the BUSY check. -/
theorem exec_eq_whenIdle (i : Instr) (s : State) : exec i s = whenIdle s (commandEffect i) := by
  cases i <;> rfl

theorem exists_exec_next (i : Instr) (s : State) : ∃ t, exec i s = .next t := by
  rw [exec_eq_whenIdle]
  exact exists_whenIdle_next s _

theorem exists_writeCommand_next (d : Byte) (s : State) : ∃ t, writeCommand d s = .next t := by
  cases hdec : decodeCommand d with
  | ok i =>
    rw [writeCommand_of_ok s hdec]
    exact exists_exec_next i s
  | error e => exact ⟨_, writeCommand_of_error s hdec⟩

theorem exists_hostWrite_next (a : Address) (d : Byte) (s : State) : ∃ t, hostWrite a d s = .next t := by
  unfold hostWrite
  cases locate a with
  | cmd => exact exists_writeCommand_next d s
  | seed | wall => exact exists_whenIdle_next s _
  | status | sr | pb | dir | pix | unmapped => exact ⟨_, rfl⟩

/-- With the invariant a turn of RAST meets a block of the picture, or its end (spec/42_layout_rasterizer.md R88). -/
theorem exists_rasterStep_next {s : State} (h : StateInv s) (hrast : s.fsm = .rastRun) :
    ∃ t, rasterStep s = .next t := by
  rcases h.drawing hrast with ⟨hcol, hrow⟩ | ⟨-, hrow⟩
  · exact ⟨_, rasterStep_next.mpr (.inr ⟨Nat.lt_succ_of_le hrow, Nat.lt_succ_of_le hcol, rfl⟩)⟩
  · exact ⟨_, rasterStep_next.mpr (.inl ⟨hrow.ge, rfl⟩)⟩

theorem exists_engineStep_next {s : State} (h : StateInv s) : ∃ t, engineStep s = .next t := by
  cases hbusy : isBusy s with
  | false => exact ⟨s, by rw [engineStep, hbusy]; rfl⟩
  | true =>
    cases hfsm : s.fsm with
    | idle => exact absurd hfsm (h.busy_iff.mp hbusy)
    | genScan | genWalk =>
      obtain ⟨t, hturn, -⟩ := exists_genTurn h (by simp [inGen, hfsm])
      exact ⟨t, hturn⟩
    | rastRun =>
      rw [engineStep, hbusy, hfsm]
      exact exists_rasterStep_next h hfsm

/-- Settles O46: of the events only a turn of the engine needs the invariant. -/
theorem noStepStops : Obligations.NoStepStops := by
  intro s hinv
  cases hev : s.events with
  | nil =>
    rw [step_nil hev]
    exact exists_engineStep_next hinv
  | cons e rest =>
    rw [step_cons hev]
    cases e with
    | read | waitIdle | reset => exact ⟨_, rfl⟩
    | write a d => exact exists_hostWrite_next a d _
    | engine => exact exists_engineStep_next (hinv.record s.seed s.epoch s.freeReads rest s.answers)

end Sys2Proof.Machine

/-! # The error bits (spec/60_exceptions.md R103 to R107)

Each error bit has a cause that raises it and one that clears it, and a step that is neither leaves it (`hasError_step`). -/

namespace Sys2Proof.Machine

/-! The causes. -/

/-- The addresses at which a write needs BUSY = 0 (spec/20_memory.md R46): CMD, SEED and WALL. -/
def needsIdle (a : Address) : Prop := a = 0x000 ∨ a = 0x002 ∨ (0x100 ≤ a.toNat ∧ a.toNat ≤ 0x1A1)

/-- The engine's next turn is a blocked draw that takes RETRY to RETRY_CAP (spec/41_maze_carver.md R77, R80). -/
def abortsNext (s : State) : Prop :=
  isBusy s = true ∧ s.fsm = .genWalk ∧ isBlocked (drawn s) s.x.toNat s.y.toNat (drawnDirection s) = true ∧
    s.retry + 1 = Config.retryCap

/-- The cause of each error, as the state before the step shows it (R103, R104, R105). -/
def raiseCause : ErrorFlag → State → Prop
  | .illegal, s => isBusy s = false ∧ ∃ d rest, s.events = .write 0x000 d :: rest ∧ 0x06 ≤ d.toNat
  | .busy, s => isBusy s = true ∧ ∃ a d rest, s.events = .write a d :: rest ∧ needsIdle a
  | .cap, s => engineTurn s ∧ abortsNext s

theorem abortsNext_setEvents (es : List Event) (s : State) : abortsNext (setEvents es s) ↔ abortsNext s := by
  have hdrawn : isBlocked (drawn (setEvents es s)) s.x.toNat s.y.toNat (drawnDirection s) =
      isBlocked (drawn s) s.x.toNat s.y.toNat (drawnDirection s) := by rw [drawn_setEvents, isBlocked_setEvents]
  unfold abortsNext
  rw [← hdrawn]
  rfl

/-- Only the bytes from 6 on are reserved (spec/30_encoding.md R60). -/
theorem six_le_of_decodeCommand_eq_error {d : Byte} {r : DecodeError} (h : decodeCommand d = .error r) : 6 ≤ d.toNat := by
  have table : ∀ d : Byte, (decodeCommand d).toOption = none → 6 ≤ d.toNat := by decide
  exact table d (by rw [h]; rfl)

/-! What raises an error. -/

/-- A write that needs BUSY = 0 is dropped while BUSY = 1 (R104). -/
theorem step_write_rejected {s : State} {a : Address} {d : Byte} {rest : List Event} (hbusy : isBusy s = true)
    (hev : s.events = .write a d :: rest) (ha : needsIdle a) : step s = .next (raise .busy (setEvents rest s)) := by
  have hbusy' : isBusy (setEvents rest s) = true := hbusy
  rcases ha with rfl | rfl | ⟨hlo, hhi⟩
  · rw [step_write_cmd hev, writeCommand_busy hbusy']
  · rw [step_write_seed hev, whenIdle_busy _ hbusy']
  · have hcell : a.toNat = wallAddr ((a.toNat - 0x100) % 18) ((a.toNat - 0x100) / 18) := by unfold wallAddr; omega
    rw [step_write_wall hev (by omega) (by omega) hcell, whenIdle_busy _ hbusy']

/-- At the cap a walk's pass is the abort (R105). -/
theorem hasError_cap_walkPass {s : State} (h : abortsNext s) : hasError .cap (walkPass s) = true := by
  obtain ⟨-, -, hblocked, hcap⟩ := h
  have hreached : capReached ((drawn s).retry + 1) = true := (capReached_iff _).mpr hcap
  rw [walkPass, if_pos hblocked, retryDraw, if_pos hreached]
  exact hasError_raise_same .cap _

/-- A turn of the engine, whether or not it is an event. -/
theorem engineTurn.exists_step_eq {s : State} (h : engineTurn s) : ∃ rest, step s = engineStep (setEvents rest s) := by
  rcases h with hev | ⟨rest, hev⟩
  · refine ⟨[], ?_⟩
    rw [step_nil hev, ← hev]
    rfl
  · exact ⟨rest, step_cons hev⟩

theorem hasError_cap_of_abortsNext {s t : State} (hturn : engineTurn s) (h : abortsNext s) (hstep : step s = .next t) :
    hasError .cap t = true := by
  obtain ⟨rest, hrest⟩ := hturn.exists_step_eq
  rw [hrest] at hstep
  have h' := (abortsNext_setEvents rest s).mpr h
  have ⟨hbusy, hwalk, _, _⟩ := h'
  rw [engineStep, hbusy, if_pos rfl, hwalk] at hstep
  obtain ⟨-, rfl⟩ := walkStep_next.mp hstep
  exact hasError_cap_walkPass h'

/-- Each error is raised by its cause. -/
theorem hasError_of_raiseCause {e : ErrorFlag} {s t : State} (h : raiseCause e s) (hstep : step s = .next t) :
    hasError e t = true := by
  cases e with
  | illegal =>
    obtain ⟨hidle, d, rest, hev, hd⟩ := h
    rw [(reservedBytesRaiseErrIllegal s rest d hev hd).1 hidle] at hstep
    obtain rfl := Host.Outcome.next.inj hstep
    exact hasError_raise_same .illegal s
  | busy =>
    obtain ⟨hbusy, a, d, rest, hev, ha⟩ := h
    rw [step_write_rejected hbusy hev ha] at hstep
    obtain rfl := Host.Outcome.next.inj hstep
    exact hasError_raise_same .busy _
  | cap => exact hasError_cap_of_abortsNext h.1 h.2 hstep

/-! What a command or a turn of the engine does to an error bit. -/

theorem hasError_startGen (e : ErrorFlag) (s : State) : hasError e (startGen s) = hasError e s :=
  (hasError_congr (s := setBusy s) e (by rw [startGen_frame]; rfl)).trans (hasError_setBusy e s)

/-- An issued command moves no error bit. -/
theorem hasError_commandEffect (e : ErrorFlag) (i : Instr) (s : State) : hasError e (commandEffect i s) = hasError e s := by
  cases i with
  | gen => exact hasError_startGen e s
  | genrast => exact hasError_startGen e { s with chain := true }
  | rast => exact (hasError_congr (s := setBusy s) e rfl).trans (hasError_setBusy e s)
  | nop | lfsrLoad | lfsrNext => exact hasError_congr e rfl

theorem hasError_scanStep (e : ErrorFlag) (s : State) : hasError e (scanStep s) = hasError e s := by
  rcases scanStep_cases s with ⟨-, h⟩ | ⟨-, -, h⟩ | ⟨-, -, h⟩ <;> rw [h]
  · exact hasError_finishGen e s
  · exact hasError_congr e (advanceScan_status s)
  · exact hasError_congr e rfl

/-- A pass of the walk moves no error bit but ERR_CAP, at the abort (R80). -/
theorem hasError_walkPass (e : ErrorFlag) (s : State) : hasError e (walkPass s) = hasError e s ∨
    (e = .cap ∧ isBlocked (drawn s) s.x.toNat s.y.toNat (drawnDirection s) = true ∧ s.retry + 1 = Config.retryCap) := by
  rcases walkPass_cases s with ⟨hblocked, h⟩ | ⟨-, h⟩ <;> rw [h]
  · rcases retryDraw_cases (drawn s) with ⟨hcap, h⟩ | ⟨-, h⟩ <;> rw [h]
    · by_cases he : e = .cap
      · exact .inr ⟨he, hblocked, hcap⟩
      · left
        rw [abortGen, hasError_raise_other _ he, hasError_clearBusy]
        exact hasError_congr e rfl
    · exact .inl (hasError_congr e rfl)
  · exact .inl (hasError_congr e (by rw [carveDraw_frame]; rfl))

/-- A turn of the engine moves no error bit but ERR_CAP, at the abort (R105). -/
theorem hasError_engineStep (e : ErrorFlag) {s t : State} (h : engineStep s = .next t) :
    hasError e t = hasError e s ∨ (e = .cap ∧ abortsNext s) := by
  rcases engineStep_cases h with ⟨-, rfl⟩ | ⟨-, -, rfl⟩ | ⟨-, -, rfl⟩ | ⟨hbusy, hwalk, -, rfl⟩ | ⟨-, -, -, -, rfl⟩ |
    ⟨-, -, -, rfl⟩
  · exact .inl rfl
  · exact .inl rfl
  · exact .inl (hasError_scanStep e s)
  · exact (hasError_walkPass e s).imp_right fun ⟨he, hblocked, hcap⟩ => ⟨he, hbusy, hwalk, hblocked, hcap⟩
  · exact .inl (hasError_congr e rfl)
  · exact .inl ((hasError_clearBusy e _).trans (hasError_congr e rfl))

/-! What clears an error. -/

/-- What clears an error (R107): reset, or a write to STATUS with 1 at its bit. -/
def clearCause (e : ErrorFlag) (s : State) : Prop :=
  (∃ rest, s.events = .reset :: rest) ∨ ∃ d rest, s.events = .write 0x001 d :: rest ∧ d.getLsbD e.bit = true

theorem step_write_status {s : State} {d : Byte} {rest : List Event} (hev : s.events = .write 0x001 d :: rest) :
    step s = .next (clearErrors d (setEvents rest s)) := step_cons hev

theorem hasError_of_clearCause {e : ErrorFlag} {s t : State} (h : clearCause e s) (hstep : step s = .next t) :
    hasError e t = false := by
  rcases h with ⟨rest, hev⟩ | ⟨d, rest, hev, hbit⟩
  · rw [step_of_reset hev] at hstep
    obtain rfl := Host.Outcome.next.inj hstep
    simp [hasError]
  · rw [step_write_status hev] at hstep
    obtain rfl := Host.Outcome.next.inj hstep
    rw [hasError_clearErrors, hbit, Bool.not_true, Bool.and_false]

/-! One step, seen from one error bit. -/

/-- Raising one error moves no other's bit. -/
theorem hasError_raise_or (e f : ErrorFlag) (s : State) : hasError e (raise f s) = hasError e s ∨ e = f :=
  or_iff_not_imp_right.mpr (hasError_raise_other s)

/-- A write to CMD raises an error or issues a command (R103, R104). -/
theorem hasError_writeCommand (e : ErrorFlag) {d : Byte} {s t : State} (h : writeCommand d s = .next t) :
    hasError e t = hasError e s ∨ (e = .busy ∧ isBusy s = true) ∨ (e = .illegal ∧ isBusy s = false ∧ 0x06 ≤ d.toNat) := by
  rcases writeCommand_cases h with ⟨hbusy, rfl⟩ | ⟨hidle, i, -, h⟩ | ⟨hidle, ⟨r, hdec⟩, rfl⟩
  · exact (hasError_raise_or e .busy s).imp_right fun he => .inl ⟨he, hbusy⟩
  · rw [exec_eq_whenIdle, whenIdle_idle _ hidle] at h
    obtain rfl := Host.Outcome.next.inj h
    exact .inl (hasError_commandEffect e i s)
  · exact (hasError_raise_or e .illegal s).imp_right fun he => .inr ⟨he, hidle, six_le_of_decodeCommand_eq_error hdec⟩

/-- What a host write does to an error bit: rejected, reserved, or a 1 written to STATUS at that bit; else nothing. -/
theorem hasError_hostWrite (e : ErrorFlag) {a : Address} {d : Byte} {s t : State} (h : hostWrite a d s = .next t) :
    hasError e t = hasError e s ∨ (e = .busy ∧ isBusy s = true ∧ needsIdle a) ∨
      (e = .illegal ∧ isBusy s = false ∧ a = 0x000 ∧ 0x06 ≤ d.toNat) ∨ (a = 0x001 ∧ d.getLsbD e.bit = true) := by
  rcases hostWrite_cases h with ⟨rfl, h⟩ | ⟨ha, rfl⟩ | ⟨ha, ⟨hbusy, rfl⟩ | ⟨-, rfl⟩⟩ |
    ⟨x, y, hx, hy, ha, ⟨hbusy, rfl⟩ | ⟨-, rfl⟩⟩ | ⟨-, -, -, -, rfl⟩
  · rcases hasError_writeCommand e h with hkept | ⟨he, hbusy⟩ | ⟨he, hidle, hd⟩
    · exact .inl hkept
    · exact .inr (.inl ⟨he, hbusy, .inl rfl⟩)
    · exact .inr (.inr (.inl ⟨he, hidle, rfl, hd⟩))
  · cases hbit : d.getLsbD e.bit with
    | true => exact .inr (.inr (.inr ⟨ha, rfl⟩))
    | false => exact .inl (by rw [hasError_clearErrors, hbit, Bool.not_false, Bool.and_true])
  · exact (hasError_raise_or e .busy s).imp_right fun he => .inl ⟨he, hbusy, .inr (.inl ha)⟩
  · exact .inl (hasError_congr e rfl)
  · have hwindow : 0x100 ≤ a.toNat ∧ a.toNat ≤ 0x1A1 := by unfold wallAddr at ha; omega
    exact (hasError_raise_or e .busy s).imp_right fun he => .inl ⟨he, hbusy, .inr (.inr hwindow)⟩
  · exact .inl (hasError_congr e rfl)
  · exact .inl rfl

/-- A step leaves an error bit, unless it has a cause to raise or to clear it. -/
theorem hasError_step (e : ErrorFlag) {s t : State} (hstep : step s = .next t) :
    hasError e t = hasError e s ∨ raiseCause e s ∨ clearCause e s := by
  have turn (rest : List Event) (hturn : engineTurn s) (h : engineStep (setEvents rest s) = .next t) :
      hasError e t = hasError e s ∨ raiseCause e s ∨ clearCause e s := by
    rcases hasError_engineStep e h with hkept | ⟨rfl, habort⟩
    · exact .inl hkept
    · exact .inr (.inl ⟨hturn, (abortsNext_setEvents rest s).mp habort⟩)
  rcases step_cases hstep with ⟨hev, h⟩ | ⟨rest, hev, h⟩ | ⟨a, rest, -, rfl⟩ | ⟨a, d, rest, hev, h⟩ | ⟨rest, -, rfl⟩ |
    ⟨rest, hev, rfl⟩
  · exact turn [] (.inl hev) (by rwa [← hev])
  · exact turn rest (.inr ⟨rest, hev⟩) h
  · exact .inl (hasError_congr e (by rw [hostRead_frame]; rfl))
  · rcases hasError_hostWrite e h with hkept | ⟨rfl, hbusy, ha⟩ | ⟨rfl, hidle, rfl, hd⟩ | ⟨rfl, hbit⟩
    · exact .inl hkept
    · exact .inr (.inl ⟨hbusy, a, d, rest, hev, ha⟩)
    · exact .inr (.inl ⟨hidle, d, rest, hev, hd⟩)
    · exact .inr (.inr (.inr ⟨d, rest, hev, hbit⟩))
  · exact .inl (hasError_congr e rfl)
  · exact .inr (.inr (.inl ⟨rest, hev⟩))

/-- An error rises exactly by its cause. -/
theorem hasError_rises_iff {e : ErrorFlag} {s t : State} (hstep : step s = .next t) (hs : hasError e s = false) :
    hasError e t = true ↔ raiseCause e s := by
  refine ⟨fun ht => ?_, fun h => hasError_of_raiseCause h hstep⟩
  rcases hasError_step e hstep with hkept | hraise | hclear
  · exact absurd (hs.symm.trans (hkept.symm.trans ht)) Bool.false_ne_true
  · exact hraise
  · exact absurd ((hasError_of_clearCause hclear hstep).symm.trans ht) Bool.false_ne_true

/-- An error falls only by a cause that clears it. -/
theorem clearCause_of_hasError_falls {e : ErrorFlag} {s t : State} (hstep : step s = .next t) (hs : hasError e s = true)
    (ht : hasError e t = false) : clearCause e s := by
  rcases hasError_step e hstep with hkept | hraise | hclear
  · exact absurd (ht.symm.trans (hkept.trans hs)) Bool.false_ne_true
  · exact absurd (ht.symm.trans (hasError_of_raiseCause hraise hstep)) Bool.false_ne_true
  · exact hclear

/-- Settles O11: the cause of ERR_BUSY, and the step it takes. -/
theorem errBusyRisesExactlyOnRejectedWrites : Obligations.ErrBusyRisesExactlyOnRejectedWrites :=
  ⟨fun _ _ hstep hs => hasError_rises_iff hstep hs, fun _ _ _ _ hbusy hev ha => step_write_rejected hbusy hev ha⟩

/-- Settles O12: the cause of ERR_ILLEGAL. -/
theorem errIllegalRisesExactlyOnReservedBytes : Obligations.ErrIllegalRisesExactlyOnReservedBytes :=
  fun _ _ hstep hs => hasError_rises_iff hstep hs

/-- Settles O13: the cause of ERR_CAP. -/
theorem errCapRisesExactlyAtTheCap : Obligations.ErrCapRisesExactlyAtTheCap :=
  fun _ _ hstep hs => hasError_rises_iff hstep hs

/-! A raised error blocks no command (R107). -/

theorem raise_comm (e f : ErrorFlag) (s : State) : raise f (raise e s) = raise e (raise f s) := by
  simp only [raise, BitVec.or_assoc, BitVec.or_comm e.mask]

theorem setBusy_raise (e : ErrorFlag) (s : State) : setBusy (raise e s) = raise e (setBusy s) := by
  simp only [raise, setBusy, BitVec.or_assoc, BitVec.or_comm e.mask]

theorem initWall_raise (e : ErrorFlag) (s : State) : initWall (raise e s) = raise e (initWall s) :=
  List.foldr_hom (raise e) fun _ _ => rfl

theorem startGen_raise (e : ErrorFlag) (s : State) : startGen (raise e s) = raise e (startGen s) := by
  have hload : loadGenerator (raise e s).seed (setBusy (raise e s)) = raise e (loadGenerator s.seed (setBusy s)) := by
    rw [setBusy_raise]
    rfl
  rw [startGen, hload, initWall_raise]
  rfl

/-- What needs BUSY = 0 goes on alike with an error raised, if its effect does. -/
theorem whenIdle_raise (e : ErrorFlag) {s t : State} {f : State → State} (hf : f (raise e s) = raise e (f s))
    (h : whenIdle s f = .next t) : whenIdle (raise e s) f = .next (raise e t) := by
  rw [whenIdle_next] at h ⊢
  rw [isBusy_raise, hf]
  rcases h with ⟨hbusy, rfl⟩ | ⟨hidle, rfl⟩
  · exact .inl ⟨hbusy, raise_comm .busy e s⟩
  · exact .inr ⟨hidle, rfl⟩

theorem commandEffect_raise (e : ErrorFlag) (i : Instr) (s : State) :
    commandEffect i (raise e s) = raise e (commandEffect i s) := by
  cases i with
  | gen => exact startGen_raise e s
  | genrast => exact startGen_raise e { s with chain := true }
  | rast => exact congrArg startRaster (setBusy_raise e s)
  | nop | lfsrLoad | lfsrNext => rfl

theorem exec_raise (e : ErrorFlag) {i : Instr} {s t : State} (h : exec i s = .next t) :
    exec i (raise e s) = .next (raise e t) := by
  rw [exec_eq_whenIdle] at h ⊢
  exact whenIdle_raise e (commandEffect_raise e i s) h

/-- Settles O14. -/
theorem errorBitsAreSticky : Obligations.ErrorBitsAreSticky :=
  ⟨fun _ _ _ hstep hs ht => clearCause_of_hasError_falls hstep hs ht, fun e _ _ _ h => exec_raise e h⟩

/-! ERR_CAP from reset (R105). -/

/-- A predicate that every step keeps holds along every run. -/
theorem runsTo_keeps {P : State → Prop} (hkeep : ∀ s t, P s → step s = .next t → P t) {n : Nat} {s t : State}
    (hs : P s) (h : runsTo n s t) : P t := by
  induction n generalizing s with
  | zero =>
    obtain rfl : s = t := Host.Outcome.next.inj h
    exact hs
  | succ n ih =>
    obtain ⟨u, hstep, hrun⟩ := runsTo_succ_iff.mp h
    exact ih (hkeep s u hs hstep) hrun

/-- The invariants under which no GEN aborts (spec/41_maze_carver.md R85), with ERR_CAP at 0. -/
structure NeverAborted (s : State) : Prop where
  state : StateInv s
  edge : EdgeInv s
  retry : RetryInv s
  cap : hasError .cap s = false

theorem NeverAborted.step {s t : State} (h : NeverAborted s) (hstep : step s = .next t) : NeverAborted t := by
  obtain ⟨hstate, hedge, hretry, hcap⟩ := everyStepKeepsTheRetryBound s t h.state h.edge h.retry hstep
  exact ⟨hstate, hedge, hretry, hcap h.cap⟩

theorem neverAborted_reset (es : List Event) : NeverAborted { State.reset with events := es } where
  state := StateInv.ofReset.record 0 0 0 es []
  edge := edgeInv_of_idle rfl
  retry := retryInv_of_idle rfl
  cap := hasError_congr (s := State.reset) .cap rfl

/-- Settles O55: every step from reset keeps the retry bound, and with it ERR_CAP at 0. -/
theorem errCapNeverRises : Obligations.ErrCapNeverRises :=
  fun _ es _ hrun => (runsTo_keeps (fun _ _ h hstep => h.step hstep) (neverAborted_reset es) hrun).cap

end Sys2Proof.Machine

/-! # BUSY always falls (spec/70_reset_and_hazards.md R117)

Every turn of a busy engine lowers a measure, from every state with the state invariant alone: what a running GEN has carved
or counted so far need not have come from an issue. Each new cell of a walk is unvisited and not the one it stands on, so the
unvisited cells elsewhere run out; RETRY stays below RETRY_CAP, which aborts. -/

namespace Sys2Proof.Machine

variable {s t : State}

/-! The cells a GEN may still come to. -/

/-- The walk stands on cell (x, y). -/
abbrev standsOn (s : State) (x y : Nat) : Prop := s.fsm = .genWalk ∧ s.x = x ∧ s.y = y

theorem CursorAt.eq_of_standsOn {x y x' y' : Nat} (hcur : CursorAt s x y) (h : standsOn s x' y') : x' = x ∧ y' = y := by
  obtain ⟨-, hx, hy⟩ := h
  exact ⟨Int.ofNat_inj.mp (hx.symm.trans hcur.x_eq), Int.ofNat_inj.mp (hy.symm.trans hcur.y_eq)⟩

/-- The unvisited cells but for the one the walk stands on. -/
def unvisitedElsewhere (s : State) : Finset (Nat × Nat) := (unvisitedCells s).filter fun c => ¬ standsOn s c.1 c.2

theorem mem_unvisitedElsewhere {x y : Nat} :
    (x, y) ∈ unvisitedElsewhere s ↔ (x, y) ∈ unvisitedCells s ∧ ¬ standsOn s x y := Finset.mem_filter

/-- Every pass of a walk marks the cell it stands on (R77). -/
theorem GenTurn.visited_of_standsOn (turn : GenTurn s t) {x y : Nat} (h : standsOn s x y) : visited t x y = true := by
  cases turn with
  | finished hscan | skipped hscan | started hscan => exact absurd h.1 (not_genWalk_of_genScan hscan)
  | aborted _ hcur | retried _ hcur =>
    obtain ⟨rfl, rfl⟩ := hcur.eq_of_standsOn h
    exact visited_drawn_cursor hcur
  | ended _ hcur =>
    obtain ⟨rfl, rfl⟩ := hcur.eq_of_standsOn h
    rw [(sameArrays_advanceScan _).visited, visited_afterCarve_cursor hcur]
  | moved _ hcur =>
    obtain ⟨rfl, rfl⟩ := hcur.eq_of_standsOn h
    exact visited_afterCarve_cursor hcur

theorem GenTurn.unvisitedElsewhere_subset (turn : GenTurn s t) : unvisitedElsewhere t ⊆ unvisitedElsewhere s := by
  rintro ⟨x, y⟩ hc
  rw [mem_unvisitedElsewhere] at hc ⊢
  refine ⟨turn.unvisitedCells_subset hc.1, fun hstand => ?_⟩
  exact Bool.false_ne_true ((mem_unvisitedCells.mp hc.1).2.symm.trans (turn.visited_of_standsOn hstand))

/-- A turn that brings the walk to a new cell leaves fewer unvisited cells elsewhere. -/
theorem GenTurn.card_unvisitedElsewhere_lt (turn : GenTurn s t) {x y : Nat} (hx : x ≤ 16) (hy : y ≤ 7)
    (hnew : visited s x y = false) (haway : ¬ standsOn s x y) (hstand : standsOn t x y) :
    (unvisitedElsewhere t).card < (unvisitedElsewhere s).card := by
  refine Finset.card_lt_card ⟨turn.unvisitedElsewhere_subset, fun hsub => ?_⟩
  have hmem : (x, y) ∈ unvisitedElsewhere s := mem_unvisitedElsewhere.mpr ⟨mem_unvisitedCells.mpr ⟨by omega, hnew⟩, haway⟩
  exact (mem_unvisitedElsewhere.mp (hsub hmem)).2 hstand

/-! The measure of GEN. -/

/-- The candidates still to be tested and the cells a walk may still come to. -/
def carvingLeft (s : State) : Nat := candidatesLeft s + (unvisitedElsewhere s).card

/-- A turn that leaves GEN running tests a candidate, comes to a new cell, or counts a retry below the cap. -/
theorem GenTurn.carvingLeft_lt_or_retry (turn : GenTurn s t) (hinv : StateInv s) (hgen : inGen t) :
    carvingLeft t < carvingLeft s ∨
      (carvingLeft t ≤ carvingLeft s ∧ s.retry < Config.retryCap ∧ t.retry = s.retry + 1) := by
  have hcells := Finset.card_le_card turn.unvisitedElsewhere_subset
  obtain ⟨hcx, hcy⟩ := hinv.candidate
  have hagain := turn
  unfold carvingLeft
  cases turn with
  | finished => exact absurd hgen (not_inGen_finishGen s)
  | aborted => exact absurd hgen (not_inGen_of_idle rfl)
  | skipped _ hleft =>
    have hcand := candidatesLeft_advanceScan hcy hleft
    omega
  | started hscan _ hnew =>
    have hcand : candidatesLeft (startWalk s) = candidatesLeft s := rfl
    have hfewer := hagain.card_unvisitedElsewhere_lt hcx hcy hnew
      (fun hstand => not_genWalk_of_genScan hscan hstand.1) ⟨rfl, rfl, rfl⟩
    omega
  | retried hwalk =>
    exact .inr ⟨Nat.add_le_add_left hcells _, (hinv.walking hwalk).2.1, rfl⟩
  | ended hwalk =>
    have hleft := (hinv.walking hwalk).2.2
    have hcand := candidatesLeft_advanceScan (s := afterCarve s) (by rwa [afterCarve_cy]) (by rwa [afterCarve_scanDone])
    rw [candidatesLeft_afterCarve] at hcand
    omega
  | moved hwalk hcur _ hcur' hnew =>
    have haway := (afterCarve_neighbour hcur hcur').2.2
    have hfewer := hagain.card_unvisitedElsewhere_lt hcur'.x_le hcur'.y_le hnew
      (fun hstand => haway (hcur.eq_of_standsOn hstand))
      ⟨(afterCarve_fsm s).trans hwalk, hcur'.x_eq, hcur'.y_eq⟩
    rw [candidatesLeft_afterCarve]
    omega

/-- Between two falls of `carvingLeft` there are at most RETRY_CAP retries (R80). -/
def carvingMeasure (s : State) : Nat := (Config.retryCap + 1) * carvingLeft s + (Config.retryCap - s.retry)

theorem GenTurn.carvingMeasure_lt (turn : GenTurn s t) (hinv : StateInv s) (hgen : inGen t) :
    carvingMeasure t < carvingMeasure s := by
  unfold carvingMeasure
  rcases turn.carvingLeft_lt_or_retry hinv hgen with hless | ⟨hle, hlt, hretry⟩
  · have hweight := Nat.mul_le_mul_left (Config.retryCap + 1) hless
    rw [Nat.mul_succ] at hweight
    omega
  · have hweight := Nat.mul_le_mul_left (Config.retryCap + 1) hle
    omega

/-! The measure of the engine. -/

/-- GEN comes before RAST (spec/43_command_control.md R99), and RAST has at most 190 blocks to put and its end (R88). -/
def engineMeasure (s : State) : Nat :=
  match s.fsm with
  | .idle => 0
  | .rastRun => 191 - (19 * s.blockY + s.blockX)
  | .genScan | .genWalk => 192 + carvingMeasure s

theorem engineMeasure_of_idle (h : s.fsm = .idle) : engineMeasure s = 0 := by simp only [engineMeasure, h]

theorem engineMeasure_of_rastRun (h : s.fsm = .rastRun) : engineMeasure s = 191 - (19 * s.blockY + s.blockX) := by
  simp only [engineMeasure, h]

theorem engineMeasure_of_inGen (h : inGen s) : engineMeasure s = 192 + carvingMeasure s := by
  rcases h with h | h <;> simp only [engineMeasure, h]

theorem engineMeasure_of_not_inGen (h : ¬ inGen s) : engineMeasure s ≤ 191 := by
  rcases not_inGen_iff.mp h with hidle | hrast
  · rw [engineMeasure_of_idle hidle]
    exact Nat.zero_le 191
  · rw [engineMeasure_of_rastRun hrast]
    exact Nat.sub_le 191 _

theorem GenTurn.engineMeasure_lt (turn : GenTurn s t) (hinv : StateInv s) : engineMeasure t < engineMeasure s := by
  rw [engineMeasure_of_inGen turn.inGen_before]
  by_cases hgen : inGen t
  · rw [engineMeasure_of_inGen hgen]
    exact Nat.add_lt_add_left (turn.carvingMeasure_lt hinv hgen) 192
  · have hle := engineMeasure_of_not_inGen hgen
    omega

theorem engineMeasure_blockDrawn_lt (hrast : s.fsm = .rastRun) (hcol : s.blockX < 19) (hrow : s.blockY < 10) :
    engineMeasure (blockDrawn s) < engineMeasure s := by
  have hrast' : (blockDrawn s).fsm = .rastRun := by rw [blockDrawn_frame, hrast]
  rw [engineMeasure_of_rastRun hrast, engineMeasure_of_rastRun hrast', blockDrawn_blockX, blockDrawn_blockY]
  split_ifs <;> omega

theorem StateInv.engineMeasure_finishRaster_lt (hinv : StateInv s) (hrast : s.fsm = .rastRun) :
    engineMeasure (finishRaster s) < engineMeasure s := by
  have hblock := hinv.drawing hrast
  rw [engineMeasure_of_rastRun hrast, engineMeasure_of_idle (s := finishRaster s) rfl]
  omega

/-- Every turn of a busy engine lowers the measure. -/
theorem StateInv.engineMeasure_lt (hinv : StateInv s) (hbusy : isBusy s = true) (h : Machine.engineStep s = .next t) :
    engineMeasure t < engineMeasure s := by
  rcases engineStep_cases h with ⟨hidle, -⟩ | ⟨-, hidle, -⟩ | ⟨-, hscan, -⟩ | ⟨-, hwalk, -⟩ | ⟨-, hrast, hrow, hcol, rfl⟩ |
    ⟨-, hrast, -, rfl⟩
  · exact absurd (hidle.symm.trans hbusy) Bool.false_ne_true
  · exact absurd hidle (hinv.busy_iff.mp hbusy)
  · exact (genTurn_of_engineStep hinv (.inl hscan) h).engineMeasure_lt hinv
  · exact (genTurn_of_engineStep hinv (.inr hwalk) h).engineMeasure_lt hinv
  · exact engineMeasure_blockDrawn_lt hrast hcol hrow
  · exact hinv.engineMeasure_finishRaster_lt hrast

/-- Settles O50, by induction on the measure. -/
theorem busyAlwaysFalls : Obligations.BusyAlwaysFalls := by
  intro s hinv hev
  induction hm : engineMeasure s using Nat.strong_induction_on generalizing s with
  | _ m ih =>
    subst hm
    cases hbusy : isBusy s with
    | false => exact ⟨0, s, runsTo_zero s, hbusy⟩
    | true =>
      obtain ⟨u, hturn⟩ := exists_engineStep_next hinv
      obtain ⟨n, t, hrun, ht⟩ := ih (engineMeasure u) (hinv.engineMeasure_lt hbusy hturn) u (hinv.engineStep hturn)
        ((engineStep_events hturn).trans hev) rfl
      exact ⟨n + 1, t, runsTo_succ_iff.mpr ⟨u, (step_nil hev).trans hturn, hrun⟩, ht⟩

end Sys2Proof.Machine
